-- ==== Sys2Proof/Word.lean ====
section
/-! DEFINITION. The word and byte types (spec/00_scope.md R6, R7): every register is 64 bits, bit 0 the least significant. -/

namespace Sys2Proof

/-- A 64-bit register value (00_scope.md R6). -/
abbrev Word := BitVec 64

/-- One byte of the payload RAM (10_state.md R48). -/
abbrev Byte := BitVec 8

end Sys2Proof
end

