-- ==== Sys2Proof/Config.lean ====
section
/-! DEFINITION. What an instance of the block fixes (00_scope.md R6), and the two values the spec leaves free. -/

namespace Sys2Proof

/-- The instance parameter `FORMAT` (00_scope.md R5): recorded, read by no rule. -/
inductive Format where
  | pcm
  | analog
deriving DecidableEq, Repr

/-- The implementation parameters of 00_scope.md R6 ("a model takes ... as arguments").
`State.params` carries them, so a statement about every state is about every instance.
Their ranges are `Params.wf`. -/
structure Params where
  /-- `MAX_FRAME_WORDS`: capacity of the output RAM in words. -/
  maxFrameWords : Nat
  /-- `MAX_PAYLOAD_BYTES`: capacity of the payload RAM in bytes. -/
  maxPayloadBytes : Nat
  /-- `CSDW_BYTES`: descriptor bytes at the start of every payload. -/
  csdwBytes : Nat
  /-- `FORMAT`. -/
  format : Format
deriving DecidableEq, Repr

/-- The defaults of 00_scope.md R6. DESIGN CHOICE (log 1, safe): `FORMAT` is PCM, since R6 gives it no
default and no rule reads it. PRESUMED (log 13, unsafe): R6 marks `CSDW_BYTES = 4` as from general knowledge. -/
def Params.standard : Params :=
  { maxFrameWords := 8192, maxPayloadBytes := 1048576, csdwBytes := 4, format := .pcm }

/-- FREE VALUE (log 5, safe): the byte at a payload offset that nothing has written since power-on, "an
arbitrary value chosen when it is first read" and fixed from then on (10_state.md R48, 93 U1). -/
opaque Config.payloadPowerOn : Nat → Byte

/-- FREE VALUE (log 6, safe): what the n-th host read of a location other than `STATUS` while `BUSY = 1`
returns (20_memory.md R68, 70_reset_and_hazards.md R253, 93 U2). -/
opaque Config.busyRead : Nat → Word

end Sys2Proof
end

