-- ==== Sys2Proof/Syntax.lean ====
section
/-! DEFINITION. The eight commands of 30_encoding.md R82, one constructor for each row of the opcode table. -/

namespace Sys2Proof

/-- A command the host can write to `CMD`. The only operand of any command is FEED_BIT's bit
(30_encoding.md R81); every other input is read from the registers. -/
inductive Instr where
  /-- `NOP`, OP 0x00 (43_commands.md R181). -/
  | nop
  /-- `CONFIGURE`, OP 0x01 (43_commands.md R182). -/
  | configure
  /-- `SETUP`, OP 0x02 (43_commands.md R184). -/
  | setup
  /-- `DECODE_FIRST`, OP 0x03 (43_commands.md R185). -/
  | decodeFirst
  /-- `DECODE_NEXT`, OP 0x04 (43_commands.md R186). -/
  | decodeNext
  /-- `FEED_BIT b`, OP 0x05 with BIT = b (43_commands.md R187). -/
  | feedBit (b : Bool)
  /-- `SWAP_BYTES`, OP 0x06 (43_commands.md R188). -/
  | swapBytes
  /-- `SWAP_SHORTS`, OP 0x07 (43_commands.md R189). -/
  | swapShorts
deriving DecidableEq, Repr

end Sys2Proof
end

