-- ==== Sys2Proof/WellFormed.lean ====
section
/-! DEFINITION. Which commands and which instance parameters are well formed. -/

namespace Sys2Proof

/-- Every command is well formed: no command has an operand but FEED_BIT's bit, and both values of
that bit are encoded (30_encoding.md R81, R82). One arm per constructor, so that a new operand asks
for its check here. -/
def Instr.wf : Instr → Bool
  | .nop => true
  | .configure => true
  | .setup => true
  | .decodeFirst => true
  | .decodeNext => true
  | .feedBit _ => true
  | .swapBytes => true
  | .swapShorts => true

/-- The ranges of the parameter table of 00_scope.md R6. `CSDW_BYTES` and `FORMAT` have none. -/
def Params.wf (p : Params) : Bool :=
  decide (1 ≤ p.maxFrameWords) && decide (p.maxFrameWords ≤ 8192) &&
  decide (4 ≤ p.maxPayloadBytes) && decide (p.maxPayloadBytes ≤ 1048576)

end Sys2Proof
end

