-- ==== Sys2Proof/Decode.lean ====
section
/-! DEFINITION. The command word `CMD64` (30_encoding.md R80 to R84): decoder, encoder, and the
host's view of the decoder. -/

namespace Sys2Proof

/-- Why a command word is illegal (30_encoding.md R83). Each of them completes with `ILLEGAL_COMMAND`, so which
one is named for a word with two faults cannot be observed (DESIGN CHOICE, log 12, safe). -/
inductive DecodeError where
  /-- `RSV ≠ 0`. -/
  | reservedBits
  /-- OP is 0x08 to 0xFF. -/
  | reservedOpcode
  /-- `BIT = 1` with an OP other than FEED_BIT's. -/
  | strayBit
deriving DecidableEq, Repr

/-- The OP field, `CMD64[7:0]` (30_encoding.md R80). -/
def cmdOp (c : Word) : Nat := (c.extractLsb' 0 8).toNat

/-- The BIT field, `CMD64[8]` (30_encoding.md R80). -/
def cmdBit (c : Word) : Bool := c.getLsbD 8

/-- The RSV field, `CMD64[63:9]` (30_encoding.md R80). -/
def cmdRsv (c : Word) : BitVec 55 := c.extractLsb' 9 55

/-- The opcode map (30_encoding.md R82), for a word whose reserved field is zero. -/
def decodeOp (op : Nat) (bit : Bool) : Except DecodeError Instr :=
  match op, bit with
  | 0x00, false => .ok .nop
  | 0x01, false => .ok .configure
  | 0x02, false => .ok .setup
  | 0x03, false => .ok .decodeFirst
  | 0x04, false => .ok .decodeNext
  | 0x05, b => .ok (.feedBit b)
  | 0x06, false => .ok .swapBytes
  | 0x07, false => .ok .swapShorts
  | op, _ => if op < 0x08 then .error .strayBit else .error .reservedOpcode

/-- Decode a command word (30_encoding.md R82, R83). Total: every word that is not a command's is
rejected by name. -/
def decode (c : Word) : Except DecodeError Instr :=
  if cmdRsv c ≠ 0 then .error .reservedBits else decodeOp (cmdOp c) (cmdBit c)

/-- The OP value of a command (30_encoding.md R82). -/
def opcodeOf : Instr → BitVec 8
  | .nop => 0x00
  | .configure => 0x01
  | .setup => 0x02
  | .decodeFirst => 0x03
  | .decodeNext => 0x04
  | .feedBit _ => 0x05
  | .swapBytes => 0x06
  | .swapShorts => 0x07

/-- The BIT value of a command (30_encoding.md R80). -/
def operandBit : Instr → Bool
  | .feedBit b => b
  | .nop | .configure | .setup | .decodeFirst | .decodeNext | .swapBytes | .swapShorts => false

/-- The command word of a command: `RSV : BIT : OP` with `RSV = 0` (30_encoding.md R80, R82). -/
def encode (i : Instr) : Word := (0 : BitVec 55) ++ BitVec.ofBool (operandBit i) ++ opcodeOf i

/-- The command the decoder reads from an opcode-table word of `nbits` bits. A command word is one
64-bit register value (30_encoding.md R84), so there are no bytes to lay out. -/
def decodeTableWord (nbits w : Nat) : Option Instr :=
  if w % 2 ^ nbits < 2 ^ 64 then
    match decode (BitVec.ofNat 64 (w % 2 ^ nbits)) with
    | .ok i => some i
    | .error _ => none
  else none

end Sys2Proof
end

