-- ==== Sys2Proof/Machine/State.lean ====
section
/-! DEFINITION. The state of the machine (10_state.md), what stops a step, and the state after power-on. -/

namespace Sys2Proof.Machine

/-- `SAVE_MODE` (10_state.md R43). The code 3 "never occurs", so there is no fourth constructor. -/
inductive SaveMode where
  | idle
  | collecting
  | full
deriving DecidableEq, Repr

/-- `A.parity_mode` (10_state.md R29). -/
inductive ParityMode where
  | none
  | odd
  | even
deriving DecidableEq, Repr

/-- `A.parity_pos` (10_state.md R29): stored, read by no rule (41_word_extractor.md R146). -/
inductive ParityPos where
  | leading
  | trailing
deriving DecidableEq, Repr

/-- The result codes of 60_exceptions.md R220, in the order of their numbers 0 to 8. -/
inductive ResultCode where
  | ok
  | frame
  | noMoreData
  | unsupported
  | invalidParameter
  | invalidData
  | bufferTooSmall
  | bufferOverrun
  | illegalCommand
deriving DecidableEq, Repr

/-- The attribute registers, the host's shadow copy (10_state.md R21 to R31). -/
structure AttrRegs where
  wordLen : Word
  frameWords : Word
  frameBits : Word
  syncPattern : Word
  syncMask : Word
  syncLen : Word
  minSync : Word
  parity : Word
  byteOrder : Word
  timePerBit : Word
deriving DecidableEq, Repr

/-- The active attribute set `A` (10_state.md R32). -/
structure Attrs where
  wordLen : Word
  frameWords : Word
  frameBits : Word
  syncPattern : Word
  syncMask : Word
  syncLen : Word
  minSync : Word
  parityMode : ParityMode
  parityPos : ParityPos
  byteSwap : Bool
  timePerBit : Word
deriving DecidableEq, Repr

/-- The packet registers `PAYLOAD_LEN`, `MODE`, `BASE_TIME` (10_state.md R33), and with the same shape
their latched copies `PKT_LEN`, `PKT_MODE`, `PKT_BASE_TIME` (10_state.md R34). -/
structure Packet where
  len : Word
  mode : Word
  baseTime : Word
deriving DecidableEq, Repr

/-- The decoder state (10_state.md R35 to R44), with the output RAM (10_state.md R47) and
`STATUS.FRAME_VALID` (10_state.md R45), which says whether that RAM holds a released frame. Everything
one bit step can write is here. -/
structure Decoder where
  /-- `TEST_WORD` (10_state.md R35). -/
  testWord : Word
  /-- `BITS_LOADED` (10_state.md R36). -/
  bitsLoaded : Word
  /-- `BIT_POSITION` (10_state.md R37). -/
  bitPosition : Word
  /-- `MF_BIT_COUNT` (10_state.md R38). -/
  mfBitCount : Word
  /-- `MF_WORD_COUNT` (10_state.md R39). -/
  mfWordCount : Word
  /-- `DW_BIT_COUNT` (10_state.md R40). -/
  dwBitCount : Word
  /-- `SYNC_COUNT`, two's complement (10_state.md R41). -/
  syncCount : Word
  /-- `SYNC_ERRORS` (10_state.md R42). -/
  syncErrors : Word
  /-- `SAVE_MODE` (10_state.md R43). -/
  saveMode : SaveMode
  /-- `FRAME_TIME`, two's complement (10_state.md R44). -/
  frameTime : Word
  /-- `OUT_WORD`: the entries that are not 0, by rising index (10_state.md R47). -/
  outWord : List (Nat × Word)
  /-- `OUT_ERR`: the entries that are not 0, by rising index (10_state.md R47). -/
  outErr : List (Nat × Bool)
  /-- `STATUS.FRAME_VALID` (10_state.md R45). -/
  frameValid : Bool
deriving DecidableEq, Repr

/-- One host access to the window (20_memory.md R62): a byte offset, a width in bytes, and for a write the
value, of which the low `8 * size` bits count. -/
inductive Access where
  | read (off size : Nat)
  | write (off size : Nat) (value : Word)
deriving DecidableEq, Repr

/-- Who moves next (00_scope.md R11). The model's own (log 2). -/
inductive Turn where
  /-- The host makes one access. -/
  | host (a : Access)
  /-- The block performs its pending command, if it has one. -/
  | block
deriving DecidableEq, Repr

/-- The state of one FSYNC-F1 instance and of the host's side of its window. -/
structure State where
  /-- The instance parameters (00_scope.md R6). No step changes them. -/
  params : Params
  /-- The attribute registers (10_state.md R21). -/
  regs : AttrRegs
  /-- `A` with `STATUS.ATTR_VALID`: present exactly when `ATTR_VALID = 1` (10_state.md R32). -/
  attrs : Option Attrs
  /-- The packet registers (10_state.md R33). -/
  packet : Packet
  /-- The latched packet registers (10_state.md R34). -/
  pkt : Packet
  /-- The decoder state (10_state.md R35 to R44) and the output RAM (R47). -/
  dec : Decoder
  /-- `STATUS.NEEDS_SETUP` (10_state.md R45). -/
  needsSetup : Bool
  /-- The fatal latch: `STATUS.FATAL` is "some code", `STATUS.FATAL_CODE` that code (60_exceptions.md R222). -/
  fatal : Option ResultCode
  /-- `STATUS.PKT_READY` (10_state.md R45). -/
  pktReady : Bool
  /-- `STATUS.RESULT` (10_state.md R45). -/
  result : ResultCode
  /-- The pending command word; `STATUS.BUSY` is "a word is pending" (10_state.md R45, R50; DEDUCED, log 3). -/
  pendingCmd : Option Word
  /-- The payload RAM: the bytes written since power-on, by rising offset (10_state.md R48). -/
  payload : List Host.Cell
  /-- Model's own (log 2): the host accesses still to come and the block's turns between them. -/
  turns : List Turn
  /-- Model's own (log 4): the value the host's last read returned. -/
  hostData : Word
  /-- Model's own (log 6): how many unspecified read values have been drawn. -/
  draws : Nat
deriving DecidableEq, Repr

/-- Why a step stops for good. -/
inductive Fault where
  /-- Raised by a host access at an offset outside the window of 20_memory.md R60 (log 8). Safe: no such
  offset exists, so nothing can be claimed of an access to it. -/
  | outsideWindow
  /-- Raised by FEED_BIT when setup is done but `A` holds no value, a state no run reaches ("so STEP always
  has an attribute set", 43_commands.md R187). Safe: the machine stops where the spec has no behaviour. -/
  | noAttributeSet
deriving DecidableEq, Repr

/-- Why a step is refused. -/
inductive Refusal where
  /-- Raised by `exec` for a command that has no meaning yet. Safe: the machine stops. -/
  | notModelled (mnemonic : String)
  /-- Raised by a host access of a wrong width or alignment, or one that crosses regions: "a model refuses
  such an access" (20_memory.md R62). Safe: the machine stops. -/
  | hostAccessShape
  /-- Raised by a host write while `BUSY = 1`: "a host error that a model refuses"
  (70_reset_and_hazards.md R253). Safe: the machine stops. -/
  | hostWriteWhileBusy
deriving DecidableEq, Repr

/-- The SETUP values of 10_state.md R52 for the decoder state, the output RAM and `FRAME_VALID`. -/
def Decoder.setupValue : Decoder :=
  { testWord := 0, bitsLoaded := 0, bitPosition := 0, mfBitCount := 0, mfWordCount := 0, dwBitCount := 0,
    syncCount := -1, syncErrors := 0, saveMode := .idle, frameTime := 0, outWord := [], outErr := [],
    frameValid := false }

/-- The power-on state of an instance with parameters `p` (10_state.md R51, 70_reset_and_hazards.md R250).
DESIGN CHOICE (logs 2, 4, 6): the model's own fields start at "nothing to come", 0 and 0. -/
def State.powerOn (p : Params) : State :=
  { params := p
    regs := { wordLen := 0, frameWords := 0, frameBits := 0, syncPattern := 0, syncMask := 0, syncLen := 0,
              minSync := 0, parity := 0, byteOrder := 0, timePerBit := 0 }
    attrs := none
    packet := { len := 0, mode := 0, baseTime := 0 }
    pkt := { len := 0, mode := 0, baseTime := 0 }
    dec := Decoder.setupValue
    needsSetup := true
    fatal := none
    pktReady := false
    result := .ok
    pendingCmd := none
    payload := []
    turns := []
    hostData := 0
    draws := 0 }

/-- The machine right after power-on, with the default parameters of 00_scope.md R6 (log 1). -/
def State.reset : State := State.powerOn Params.standard

end Sys2Proof.Machine
end

