-- ==== Sys2Proof/Machine/Memory.lean ====
section
/-! DEFINITION. The payload RAM and the output RAM as lists of (address, value) pairs in one canonical form:
addresses strictly rising, no pair that equals what an unlisted address holds. -/

namespace Sys2Proof.Machine

/-- The value listed at an address. -/
def cellAt {α : Type} : List (Nat × α) → Nat → Option α
  | [], _ => none
  | (k, v) :: m, a => if a = k then some v else cellAt m a

/-- List a value at an address, keeping the addresses rising. -/
def putCell {α : Type} : List (Nat × α) → Nat → α → List (Nat × α)
  | [], a, v => [(a, v)]
  | (k, w) :: m, a, v =>
    if a < k then (a, v) :: (k, w) :: m
    else if a = k then (a, v) :: m
    else (k, w) :: putCell m a v

/-- Unlist an address. -/
def dropCell {α : Type} (m : List (Nat × α)) (a : Nat) : List (Nat × α) :=
  m.filter fun c => decide (c.1 ≠ a)

/-- Addresses strictly rising. -/
abbrev Rising {α : Type} (m : List (Nat × α)) : Prop := m.Pairwise fun x y => x.1 < y.1

/-- The canonical form of the payload RAM. An unlisted byte has not been written and holds no known
value (10_state.md R48), so no listed byte can equal it: only the order of the addresses is asked. -/
abbrev Memory.wf (m : List Host.Cell) : Prop := Rising m

/-- `MemRead(a, 1)` (00_scope.md R10). A byte that has not been written since power-on reads as the free
value of its offset (10_state.md R48). -/
def Memory.read (m : List Host.Cell) (a : Nat) : Byte := (cellAt m a).getD (Config.payloadPowerOn a)

/-- `MemWrite(a, 1, v)` (00_scope.md R10). -/
def Memory.write (m : List Host.Cell) (a : Nat) (v : Byte) : List Host.Cell := putCell m a v

/-- `n` bytes from `a` as one little-endian value (20_memory.md R63). -/
def Memory.readLE (m : List Host.Cell) (a : Nat) : Nat → Word
  | 0 => 0
  | n + 1 => (Memory.readLE m (a + 1) n <<< 8) ||| (Memory.read m a).setWidth 64

/-- Write the low `n` bytes of `v` at `a`: `v[8k+7:8k]` to byte `a+k` (20_memory.md R63). -/
def Memory.writeLE (m : List Host.Cell) (a : Nat) (v : Word) : Nat → List Host.Cell
  | 0 => m
  | n + 1 => Memory.write (Memory.writeLE m a v n) (a + n) (v.extractLsb' (8 * n) 8)

/-- The canonical form of an output RAM whose unlisted entries hold `d`. -/
abbrev OutRam.wf {α : Type} (d : α) (m : List (Nat × α)) : Prop := Rising m ∧ ∀ c ∈ m, c.2 ≠ d

/-- Read an output RAM entry; an unlisted entry holds `d`, the setup value (10_state.md R47, R52). -/
def OutRam.read {α : Type} (d : α) (m : List (Nat × α)) (i : Nat) : α := (cellAt m i).getD d

/-- Write an output RAM entry. -/
def OutRam.write {α : Type} [DecidableEq α] (d : α) (m : List (Nat × α)) (i : Nat) (v : α) : List (Nat × α) :=
  if v = d then dropCell m i else putCell m i v

/-- `OUT_WORD[i]` (10_state.md R47). -/
def Decoder.wordAt (d : Decoder) (i : Nat) : Word := OutRam.read 0 d.outWord i

/-- `OUT_ERR[i]` (10_state.md R47). -/
def Decoder.errAt (d : Decoder) (i : Nat) : Bool := OutRam.read false d.outErr i

end Sys2Proof.Machine
end

