-- ==== Sys2Proof/Machine/Operands.lean ====
section
/-! DEFINITION. What commands read from registers: fields of `PARITY`, `BYTE_ORDER` and `MODE`
(10_state.md R29, R30, R33), the payload length checks (43_commands.md R190), and CONFIGURE's validation of
the attribute registers (43_commands.md R182). -/

namespace Sys2Proof.Machine

/-- `ones(n)` of 00_scope.md R8, for n up to 64: bits n-1..0 set. -/
def ones (n : Nat) : Word := BitVec.allOnes 64 >>> (64 - n)

/-- `PARITY[1:0]` (10_state.md R29); the value 3 is reserved. -/
def parityModeOf (r : Word) : Option ParityMode :=
  match (r.extractLsb' 0 2).toNat with
  | 0 => some .none
  | 1 => some .odd
  | 2 => some .even
  | _ => none

/-- `PARITY[2]` (10_state.md R29). -/
def parityPosOf (r : Word) : ParityPos := if r.getLsbD 2 then .trailing else .leading

/-- `PARITY[63:3]`, reserved (10_state.md R29). -/
def parityReserved (r : Word) : BitVec 61 := r.extractLsb' 3 61

/-- `BYTE_ORDER[0]`, `BYTE_SWAP` (10_state.md R30). -/
def byteSwapOf (r : Word) : Bool := r.getLsbD 0

/-- `BYTE_ORDER[1]`, `LSB_FIRST` (10_state.md R30). -/
def lsbFirstOf (r : Word) : Bool := r.getLsbD 1

/-- `BYTE_ORDER[63:2]`, reserved (10_state.md R30). -/
def byteOrderReserved (r : Word) : BitVec 62 := r.extractLsb' 2 62

/-- `MODE[0]`, `THROUGHPUT` (10_state.md R33). -/
def Packet.throughput (p : Packet) : Bool := p.mode.getLsbD 0

/-- `MODE[1]`, `ALIGN32` (10_state.md R33). -/
def Packet.align32 (p : Packet) : Bool := p.mode.getLsbD 1

/-- `A.frame_bits` (10_state.md R24): as given, or the derived length when `FRAME_BITS = 0`. -/
def frameBitsOf (r : AttrRegs) : Word :=
  if r.frameBits ≠ 0 then r.frameBits
  else BitVec.ofNat 64 (r.wordLen.toNat * (r.frameWords.toNat - 1) + r.syncLen.toNat)

/-- CONFIGURE's checks in their order (43_commands.md R182, 60_exceptions.md R227): the attribute set they
pass, or the code of the first that fails. -/
def validateAttrs (r : AttrRegs) : Except ResultCode Attrs :=
  if r.wordLen.toNat < 1 ∨ 64 < r.wordLen.toNat then .error .invalidParameter
  else if r.frameWords.toNat < 2 ∨ 4294967295 < r.frameWords.toNat then .error .invalidParameter
  else if r.syncLen.toNat < 1 ∨ 64 < r.syncLen.toNat then .error .invalidParameter
  else if r.syncMask &&& ~~~(ones r.syncLen.toNat) ≠ 0 then .error .invalidParameter
  else if r.syncPattern &&& ~~~r.syncMask ≠ 0 then .error .invalidParameter
  else if r.minSync.getLsbD 63 then .error .invalidParameter
  else if parityReserved r.parity ≠ 0 then .error .invalidParameter
  else match parityModeOf r.parity with
    | none => .error .invalidParameter
    | some parityMode =>
      if byteOrderReserved r.byteOrder ≠ 0 then .error .invalidParameter
      else if lsbFirstOf r.byteOrder then .error .unsupported
      else .ok
        { wordLen := r.wordLen, frameWords := r.frameWords, frameBits := frameBitsOf r,
          syncPattern := r.syncPattern, syncMask := r.syncMask, syncLen := r.syncLen, minSync := r.minSync,
          parityMode := parityMode, parityPos := parityPosOf r.parity, byteSwap := byteSwapOf r.byteOrder,
          timePerBit := r.timePerBit }

/-- The payload length checks of 43_commands.md R190: the code that refuses a length, if one does. -/
def lengthRefusal (p : Params) (len : Nat) : Option ResultCode :=
  if len < p.csdwBytes then some .noMoreData
  else if p.maxPayloadBytes < len then some .bufferOverrun
  else none

end Sys2Proof.Machine
end

