-- ==== Sys2Proof/Machine/Flags.lean ====
section
/-! DEFINITION. The codes and flags: result codes (60_exceptions.md R220, R222), the code of `SAVE_MODE`
(10_state.md R43), the `STATUS` register (10_state.md R45), and the parity flag (41_word_extractor.md R144). -/

namespace Sys2Proof.Machine

/-- The number of a result code (60_exceptions.md R220). -/
def ResultCode.number : ResultCode → BitVec 8
  | .ok => 0
  | .frame => 1
  | .noMoreData => 2
  | .unsupported => 3
  | .invalidParameter => 4
  | .invalidData => 5
  | .bufferTooSmall => 6
  | .bufferOverrun => 7
  | .illegalCommand => 8

/-- The fatal codes (60_exceptions.md R222). -/
def ResultCode.isFatal : ResultCode → Bool
  | .unsupported => true
  | .invalidParameter => true
  | .bufferTooSmall => true
  | .ok => false
  | .frame => false
  | .noMoreData => false
  | .invalidData => false
  | .bufferOverrun => false
  | .illegalCommand => false

/-- The code of `SAVE_MODE` (10_state.md R43). -/
def SaveMode.number : SaveMode → BitVec 2
  | .idle => 0
  | .collecting => 1
  | .full => 2

/-- `STATUS.BUSY` (10_state.md R45). -/
def State.busy (s : State) : Bool := s.pendingCmd.isSome

/-- `STATUS.FATAL_CODE` (10_state.md R45): 0 when `FATAL = 0`. -/
def State.fatalNumber (s : State) : BitVec 8 :=
  match s.fatal with
  | none => 0
  | some c => c.number

/-- The `STATUS` register (10_state.md R45), its fields from bit 63 down to bit 0. -/
def State.statusWord (s : State) : Word :=
  (0 : BitVec 40) ++ s.fatalNumber ++ s.result.number ++ (0 : BitVec 2) ++ BitVec.ofBool s.pktReady ++
    BitVec.ofBool s.dec.frameValid ++ BitVec.ofBool s.fatal.isSome ++ BitVec.ofBool s.needsSetup ++
    BitVec.ofBool s.attrs.isSome ++ BitVec.ofBool s.busy

/-- `popcount(v)` (00_scope.md R8). -/
def popcount (v : Word) : Nat := (List.range 64).countP fun i => v.getLsbD i

/-- `ParityError(w)` (41_word_extractor.md R144). -/
def parityError (mode : ParityMode) (w : Word) : Bool :=
  match mode with
  | .none => false
  | .odd => decide (popcount w % 2 = 0)
  | .even => decide (popcount w % 2 = 1)

end Sys2Proof.Machine
end

