-- ==== Sys2Proof/Machine/Ops.lean ====
section
/-! DEFINITION. The shared operations: counter arithmetic (00_scope.md R8), how a command completes and
raises (00_scope.md R10, 60_exceptions.md R222), setup (43_commands.md R183), and whose turn it is. -/

namespace Sys2Proof.Machine

/-- `sat_inc_64(v)` of an unsigned counter (00_scope.md R8). -/
def satInc (v : Word) : Word := if v = BitVec.allOnes 64 then v else v + 1

/-- `sat_inc(v)` of the signed `SYNC_COUNT`: it saturates at 2^63-1 (00_scope.md R8, 40_bit_sync.md R106). -/
def satIncSigned (v : Word) : Word := if v = BitVec.intMax 64 then v else v + 1

/-- `complete CODE` (00_scope.md R10, 43_commands.md R180): the last effects of every command. -/
def State.complete (s : State) (c : ResultCode) : State := { s with result := c, pendingCmd := none }

/-- Set the fatal latch, if the code is a fatal one (60_exceptions.md R222). -/
def State.latchFatal (s : State) (c : ResultCode) : State :=
  { s with fatal := if c.isFatal then some c else s.fatal }

/-- `raise CODE` (00_scope.md R10): TAKING AN ERROR, the block's only "exception" (60_exceptions.md R228).
A fatal code sets the latch; then the command completes with the code. There is no return from an error
(60_exceptions.md R229); `applySetup` is what clears the latch. -/
def State.raise (s : State) (c : ResultCode) : State := (s.latchFatal c).complete c

/-- Replace the decoder state. -/
def State.withDec (s : State) (d : Decoder) : State := { s with dec := d }

/-- Replace the payload RAM. -/
def State.withPayload (s : State) (m : List Host.Cell) : State := { s with payload := m }

/-- `STATUS.PKT_READY <- 0`. -/
def State.dropPacket (s : State) : State := { s with pktReady := false }

/-- The four status writes that begin CONFIGURE (43_commands.md R182). Clearing `ATTR_VALID` leaves no
active set. -/
def State.unconfigure (s : State) : State :=
  { s with pktReady := false, needsSetup := true, attrs := none, dec := { s.dec with frameValid := false } }

/-- Adopt a validated attribute set: `A <- ...; STATUS.ATTR_VALID <- 1` (43_commands.md R182). -/
def State.adopt (s : State) (a : Attrs) : State := { s with attrs := some a }

/-- Latch the packet registers (43_commands.md R185 step 4). -/
def State.latchPacket (s : State) : State := { s with pkt := s.packet }

/-- Step 10 of DECODE_FIRST (43_commands.md R185): `BIT_POSITION <- 0; STATUS.PKT_READY <- 1`. -/
def State.startPacket (s : State) : State :=
  { s with dec := { s.dec with bitPosition := 0 }, pktReady := true }

/-- Write every value of 10_state.md R52. -/
def State.applySetup (s : State) : State :=
  { s with dec := Decoder.setupValue, pktReady := false, needsSetup := false, fatal := none }

/-- `SETUP_CORE()` (43_commands.md R183): all of 10_state.md R52, or `BUFFER_TOO_SMALL` and nothing. -/
def setupCore (a : Attrs) (s : State) : Except ResultCode State :=
  if s.params.maxFrameWords < a.frameWords.toNat then .error .bufferTooSmall else .ok s.applySetup

/-- Whose turn it is (log 2): a host access, or (`none`) the block's turn, and the state with that turn
taken off the list. With no turn listed it is the block's. -/
def nextTurn (s : State) : Option Access × State :=
  match s.turns with
  | [] => (none, s)
  | .block :: rest => (none, { s with turns := rest })
  | .host a :: rest => (some a, { s with turns := rest })

/-- Hand the block a command word and give it the next turn; the host's accesses still to come stay behind
that turn (log 2). -/
def placeCommand (s : State) (c : Word) : State :=
  { s with pendingCmd := some c, turns := .block :: s.turns }

/-- An illegal command word (43_commands.md R180): `complete ILLEGAL_COMMAND`, nothing else changes. -/
def illegalWord (s : State) : State := s.complete .illegalCommand

end Sys2Proof.Machine
end

