-- ==== Sys2Proof/Machine/Control.lean ====
section
/-! DEFINITION. NOP, CONFIGURE and SETUP (43_commands.md R181, R182, R184). -/

namespace Sys2Proof.Machine

/-- `NOP` (43_commands.md R181). -/
def execNop (s : State) : Host.Outcome State Fault Refusal := .next (s.complete .ok)

/-- `CONFIGURE` (43_commands.md R182). The four status writes come first, whether or not the checks pass. -/
def execConfigure (s : State) : Host.Outcome State Fault Refusal :=
  match validateAttrs s.regs with
  | .error c => .next (s.unconfigure.raise c)
  | .ok a => .next ((s.unconfigure.adopt a).complete .ok)

/-- `SETUP` (43_commands.md R184). -/
def execSetup (s : State) : Host.Outcome State Fault Refusal :=
  match s.attrs with
  | none => .next (s.dropPacket.raise .invalidParameter)
  | some a =>
    match setupCore a s.dropPacket with
    | .error c => .next (s.dropPacket.raise c)
    | .ok t => .next (t.complete .ok)

end Sys2Proof.Machine
end

