-- ==== Sys2Proof/Machine/WordExtractor.lean ====
section
/-! DEFINITION. The word extractor (41_word_extractor.md): ACCUMULATE and WORD_WRITE. -/

namespace Sys2Proof.Machine

/-- A completed word, `TEST_WORD AND ones(A.word_len)` (41_word_extractor.md R141). -/
def completedWord (a : Attrs) (d : Decoder) : Word := d.testWord &&& ones a.wordLen.toNat

/-- The output slot of the next word, `MF_WORD_COUNT - 1` (41_word_extractor.md R142). A word write always finds
`MF_WORD_COUNT` at least 1; the truncated subtraction at 0 is never reached (DEDUCED, log 10). -/
def wordSlot (d : Decoder) : Nat := d.mfWordCount.toNat - 1

/-- `WORD_WRITE()` (41_word_extractor.md R142). -/
def wordWrite (a : Attrs) (d : Decoder) : Decoder :=
  { d with
    outWord := OutRam.write 0 d.outWord (wordSlot d) (completedWord a d)
    outErr := OutRam.write false d.outErr (wordSlot d) (parityError a.parityMode (completedWord a d))
    frameValid := false
    dwBitCount := 0
    mfWordCount := d.mfWordCount + 1 }

/-- The FULL transition after a word write (41_word_extractor.md R143). -/
def fullTest (a : Attrs) (d : Decoder) : Decoder :=
  { d with saveMode := if d.mfWordCount = a.frameWords then .full else d.saveMode }

/-- `ACCUMULATE()` (41_word_extractor.md R140). -/
def accumulate (a : Attrs) (d : Decoder) : Decoder :=
  if d.dwBitCount + 1 = a.wordLen then fullTest a (wordWrite a { d with dwBitCount := d.dwBitCount + 1 })
  else { d with dwBitCount := d.dwBitCount + 1 }

end Sys2Proof.Machine
end

