-- ==== Sys2Proof/Machine/BitSync.lean ====
section
/-! DEFINITION. The bit reader, the per-bit step and the run loop (40_bit_sync.md). -/

namespace Sys2Proof.Machine

/-- `BIT_AT(i)` (40_bit_sync.md R100): most significant bit of each byte first. -/
def bitAt (p : Params) (m : List Host.Cell) (i : Nat) : Bool :=
  (Memory.read m (p.csdwBytes + i / 8)).getLsbD (7 - i % 8)

/-- `SHIFT(b)` (40_bit_sync.md R102): `TEST_WORD[62:0] : b`. -/
def shiftIn (b : Bool) (d : Decoder) : Decoder := { d with testWord := d.testWord.shiftConcat b }

/-- `COUNT()` (40_bit_sync.md R103). -/
def countBit (d : Decoder) : Decoder :=
  { d with bitsLoaded := d.bitsLoaded + 1, mfBitCount := satInc d.mfBitCount, bitPosition := satInc d.bitPosition }

/-- The limit 10^12 of the `BITS_LOADED` cap (40_bit_sync.md R104). PRESUMED (log 13): R104 calls the literal
unaudited. -/
def capLimit : Nat := 1000000000000

/-- The value 10^9 the cap sets (40_bit_sync.md R104). PRESUMED (log 13): R104 calls the literal unaudited. -/
def capValue : Word := 1000000000

/-- `CAP()` (40_bit_sync.md R104). -/
def capLoaded (d : Decoder) : Decoder :=
  { d with bitsLoaded := if capLimit < d.bitsLoaded.toNat then capValue else d.bitsLoaded }

/-- The first three lines of STEP: SHIFT, COUNT, CAP (40_bit_sync.md R101). -/
def loadBit (b : Bool) (d : Decoder) : Decoder := capLoaded (countBit (shiftIn b d))

/-- `SYNC_TEST()` (40_bit_sync.md R105). -/
def syncTest (a : Attrs) (d : Decoder) : Bool :=
  decide (a.syncLen.toNat ≤ d.bitsLoaded.toNat) && decide (d.testWord &&& a.syncMask = a.syncPattern)

/-- `TIMESTAMP(p)` (40_bit_sync.md R108). Integer division by 2^32 rounds toward minus infinity. -/
def timestamp (a : Attrs) (base pos : Word) : Word :=
  BitVec.ofInt 64
    (base.toInt + ((pos.toNat : Int) - (a.frameBits.toNat : Int)) * (a.timePerBit.toNat : Int) / 4294967296)

/-- `RELEASE()` (40_bit_sync.md R107); `base` is `PKT_BASE_TIME`. -/
def release (a : Attrs) (base : Word) (d : Decoder) : Decoder :=
  { d with frameTime := timestamp a base d.bitPosition, frameValid := true }

/-- Does the correct-offset branch release: `SAVE_MODE = FULL and SYNC_COUNT ≥ A.min_sync`, the count
already incremented (40_bit_sync.md R106)? -/
def releases (a : Attrs) (d : Decoder) : Bool :=
  decide (d.saveMode = .full) && decide ((a.minSync.toNat : Int) ≤ d.syncCount.toInt)

/-- The increment of CORRECT_OFFSET (40_bit_sync.md R106). -/
def confirmSync (d : Decoder) : Decoder := { d with syncCount := satIncSigned d.syncCount }

/-- `CORRECT_OFFSET()` (40_bit_sync.md R106), with `released`. -/
def correctOffset (a : Attrs) (base : Word) (d : Decoder) : Decoder × Bool :=
  if releases a (confirmSync d) then (release a base (confirmSync d), true) else (confirmSync d, false)

/-- `WRONG_OFFSET()` (40_bit_sync.md R109). -/
def wrongOffset (d : Decoder) : Decoder :=
  { d with
    syncErrors := if d.syncCount ≠ -1 then satInc d.syncErrors else d.syncErrors
    syncCount := 0 }

/-- `SYNC_RESET()` (40_bit_sync.md R110). -/
def syncReset (d : Decoder) : Decoder :=
  { d with mfBitCount := 0, mfWordCount := 1, dwBitCount := 0, saveMode := .collecting }

/-- The sync-fire branch of STEP (40_bit_sync.md R101). -/
def onSync (a : Attrs) (base : Word) (d : Decoder) : Decoder × Bool :=
  if d.mfBitCount = a.frameBits then (syncReset (correctOffset a base d).1, (correctOffset a base d).2)
  else (syncReset (wrongOffset d), false)

/-- The branch of STEP without a sync fire (40_bit_sync.md R111). -/
def onData (a : Attrs) (d : Decoder) : Decoder :=
  if d.saveMode = .collecting then accumulate a d else d

/-- `STEP(b)` (40_bit_sync.md R101): the new decoder state and `released`. -/
def stepBit (a : Attrs) (base : Word) (b : Bool) (d : Decoder) : Decoder × Bool :=
  if syncTest a (loadBit b d) then onSync a base (loadBit b d) else (onData a (loadBit b d), false)

/-- The bits of the data region, `8 * (PKT_LEN - CSDW_BYTES)` (40_bit_sync.md R112). -/
def dataBits (p : Params) (pkt : Packet) : Nat := 8 * (pkt.len.toNat - p.csdwBytes)

/-- The loop of `RUN()` (40_bit_sync.md R112), cut after `fuel` turns. -/
def runLoop (p : Params) (a : Attrs) (base : Word) (m : List Host.Cell) (nbits : Nat) :
    Nat → Decoder → Decoder × Bool
  | 0, d => (d, false)
  | fuel + 1, d =>
    if d.bitPosition.toNat < nbits then
      match stepBit a base (bitAt p m d.bitPosition.toNat) d with
      | (d', true) => (d', true)
      | (d', false) => runLoop p a base m nbits fuel d'
    else (d, false)

/-- `RUN()` (40_bit_sync.md R112), with whether a frame was released. Every turn of the loop moves
`BIT_POSITION` one on, so the bits left are as many turns as it can take (DEDUCED, log 9). -/
def run (p : Params) (a : Attrs) (pkt : Packet) (m : List Host.Cell) (d : Decoder) : Decoder × Bool :=
  runLoop p a pkt.baseTime m (dataBits p pkt) (dataBits p pkt - d.bitPosition.toNat) d

/-- RUN on the loaded packet, and the completion it ends in (40_bit_sync.md R112). -/
def runPacket (a : Attrs) (s : State) : State :=
  (s.withDec (run s.params a s.pkt s.payload s.dec).1).complete
    (if (run s.params a s.pkt s.payload s.dec).2 then .frame else .noMoreData)

end Sys2Proof.Machine
end

