-- ==== Sys2Proof/Machine/Swap.lean ====
section
/-! DEFINITION. The byte and short swaps of the data region (42_byte_swap.md). -/

namespace Sys2Proof.Machine

/-- Exchange the two bytes at `p` and `p+1` (42_byte_swap.md R160). PRESUMED (log 13, unsafe): R160 marks
the permutation as general knowledge. -/
def swapPair (m : List Host.Cell) (p : Nat) : List Host.Cell :=
  Memory.write (Memory.write m p (Memory.read m (p + 1))) (p + 1) (Memory.read m p)

/-- Exchange the two 16-bit halves of the four bytes at `p` (42_byte_swap.md R161). PRESUMED (log 13, unsafe): R161
marks the permutation as general knowledge. -/
def swapQuad (m : List Host.Cell) (p : Nat) : List Host.Cell :=
  Memory.write
    (Memory.write
      (Memory.write (Memory.write m p (Memory.read m (p + 2))) (p + 1) (Memory.read m (p + 3)))
      (p + 2) (Memory.read m p))
    (p + 3) (Memory.read m (p + 1))

/-- `swapPair` at `base + 2k` for k in 0 .. count-1 (42_byte_swap.md R160). -/
def swapPairs (base : Nat) : Nat → List Host.Cell → List Host.Cell
  | 0, m => m
  | k + 1, m => swapPair (swapPairs base k m) (base + 2 * k)

/-- `swapQuad` at `base + 4k` for k in 0 .. count-1 (42_byte_swap.md R161). -/
def swapQuads (base : Nat) : Nat → List Host.Cell → List Host.Cell
  | 0, m => m
  | k + 1, m => swapQuad (swapQuads base k m) (base + 4 * k)

/-- `SWAP16(L)` (42_byte_swap.md R160): the length check first (R162), then the data region only (R163). -/
def swap16 (p : Params) (len : Nat) (m : List Host.Cell) : Except ResultCode (List Host.Cell) :=
  if (len - p.csdwBytes) % 2 ≠ 0 then .error .invalidData
  else .ok (swapPairs p.csdwBytes ((len - p.csdwBytes) / 2) m)

/-- `SWAP32(L)` (42_byte_swap.md R161): the length check first (R162), then the data region only (R163). -/
def swap32 (p : Params) (len : Nat) (m : List Host.Cell) : Except ResultCode (List Host.Cell) :=
  if (len - p.csdwBytes) % 4 ≠ 0 then .error .invalidData
  else .ok (swapQuads p.csdwBytes ((len - p.csdwBytes) / 4) m)

/-- `BYTE_SWAP_FIXUP()` (42_byte_swap.md R164) on the latched packet: both checks, then the swaps. -/
def byteSwapFixup (p : Params) (a : Attrs) (pkt : Packet) (m : List Host.Cell) :
    Except ResultCode (List Host.Cell) :=
  if a.byteSwap then
    if (pkt.len.toNat - p.csdwBytes) % 2 ≠ 0 then .error .invalidData
    else if pkt.align32 ∧ (pkt.len.toNat - p.csdwBytes) % 4 ≠ 0 then .error .invalidData
    else
      match swap16 p pkt.len.toNat m with
      | .error c => .error c
      | .ok m' => if pkt.align32 then swap32 p pkt.len.toNat m' else .ok m'
  else .ok m

/-- A standalone swap on the region `PAYLOAD_LEN` declares (43_commands.md R188, R189, R190). -/
def swapCommand (swap : Params → Nat → List Host.Cell → Except ResultCode (List Host.Cell)) (s : State) : State :=
  match lengthRefusal s.params s.packet.len.toNat with
  | some c => s.complete c
  | none =>
    match swap s.params s.packet.len.toNat s.payload with
    | .error c => s.raise c
    | .ok m => (s.withPayload m).complete .ok

end Sys2Proof.Machine
end

