-- ==== Sys2Proof/Machine/Decoding.lean ====
section
/-! DEFINITION. DECODE_FIRST, DECODE_NEXT and FEED_BIT (43_commands.md R185 to R187). -/

namespace Sys2Proof.Machine

/-- Step 7 of DECODE_FIRST (43_commands.md R185): the first-invocation setup. -/
def setupIfNeeded (a : Attrs) (s : State) : Except ResultCode State :=
  if s.needsSetup then setupCore a s else .ok s

/-- Steps 8 to 11 of DECODE_FIRST (43_commands.md R185). -/
def decodeLatched (a : Attrs) (s : State) : State :=
  if !s.pkt.throughput then s.raise .unsupported
  else
    match byteSwapFixup s.params a s.pkt s.payload with
    | .error c => s.raise c
    | .ok m => runPacket a (s.withPayload m).startPacket

/-- Steps 5 to 11 of DECODE_FIRST (43_commands.md R185), the packet registers latched. -/
def decodeChecked (a : Attrs) (s : State) : State :=
  match lengthRefusal s.params s.pkt.len.toNat with
  | some c => s.complete c
  | none =>
    match setupIfNeeded a s with
    | .error c => s.raise c
    | .ok t => decodeLatched a t

/-- `DECODE_FIRST` (43_commands.md R185). -/
def execDecodeFirst (s : State) : Host.Outcome State Fault Refusal :=
  match s.fatal with
  | some c => .next (s.complete c)
  | none =>
    match s.attrs with
    | none => .next (s.dropPacket.raise .unsupported)
    | some a => .next (decodeChecked a s.dropPacket.latchPacket)

/-- `DECODE_NEXT` (43_commands.md R186). -/
def execDecodeNext (s : State) : Host.Outcome State Fault Refusal :=
  match s.fatal with
  | some c => .next (s.complete c)
  | none =>
    match s.attrs with
    | none => .next (s.raise .unsupported)
    | some a => .next (if s.pktReady then runPacket a s else s.complete .illegalCommand)

/-- Steps 3 and 4 of FEED_BIT (43_commands.md R187). -/
def feedStep (a : Attrs) (b : Bool) (s : State) : State :=
  (s.withDec (stepBit a s.pkt.baseTime b s.dec).1).complete
    (if (stepBit a s.pkt.baseTime b s.dec).2 then .frame else .ok)

/-- `FEED_BIT b` (43_commands.md R187). The fault is for a state no run reaches: "NEEDS_SETUP = 0 implies
ATTR_VALID = 1". -/
def execFeedBit (b : Bool) (s : State) : Host.Outcome State Fault Refusal :=
  match s.fatal with
  | some c => .next (s.complete c)
  | none =>
    if s.needsSetup then .next (s.complete .illegalCommand)
    else
      match s.attrs with
      | none => .fault .noAttributeSet
      | some a => .next (feedStep a b s)

end Sys2Proof.Machine
end

