-- ==== Sys2Proof/Machine/Swapping.lean ====
section
/-! DEFINITION. SWAP_BYTES and SWAP_SHORTS (43_commands.md R188, R189). -/

namespace Sys2Proof.Machine

/-- `SWAP_BYTES` (43_commands.md R188). -/
def execSwapBytes (s : State) : Host.Outcome State Fault Refusal := .next (swapCommand swap16 s)

/-- `SWAP_SHORTS` (43_commands.md R189). -/
def execSwapShorts (s : State) : Host.Outcome State Fault Refusal := .next (swapCommand swap32 s)

end Sys2Proof.Machine
end

