-- ==== Sys2Proof/Machine/Dispatch.lean ====
section
/-! DEFINITION. One arm per command (43_commands.md R180). -/

namespace Sys2Proof.Machine

def exec (i : Instr) (s : State) : Host.Outcome State Fault Refusal :=
  match i with
  | .nop => Sys2Proof.Machine.execNop s
  | .configure => Sys2Proof.Machine.execConfigure s
  | .setup => Sys2Proof.Machine.execSetup s
  | .decodeFirst => Sys2Proof.Machine.execDecodeFirst s
  | .decodeNext => Sys2Proof.Machine.execDecodeNext s
  | .feedBit b => Sys2Proof.Machine.execFeedBit b s
  | .swapBytes => Sys2Proof.Machine.execSwapBytes s
  | .swapShorts => Sys2Proof.Machine.execSwapShorts s

end Sys2Proof.Machine
end

