-- ==== Sys2Proof/Machine/Block.lean ====
section
/-! DEFINITION. The block's turn (43_commands.md R180). -/

namespace Sys2Proof.Machine

/-- Decode and perform a command word as one atomic step (43_commands.md R180). The illegal-word check comes
before every other check (30_encoding.md R83). -/
def performCommand (c : Word) (s : State) : Host.Outcome State Fault Refusal :=
  match decode c with
  | .error _ => .next (illegalWord s)
  | .ok i => exec i s

/-- The block's turn: it performs the pending command. With no command pending it has no step and nothing
changes (00_scope.md R11). -/
def blockTurn (s : State) : Host.Outcome State Fault Refusal :=
  match s.pendingCmd with
  | none => .next s
  | some c => performCommand c s

end Sys2Proof.Machine
end

