-- ==== Sys2Proof/Machine/Window.lean ====
section
/-! DEFINITION. The host's window (20_memory.md): its map, its access rules, and one host access. -/

namespace Sys2Proof.Machine

/-- The registers of the map, in the order of their offsets (20_memory.md R61). -/
inductive Reg where
  | cmd | status | wordLen | frameWords | frameBits | syncPattern | syncMask | syncLen | minSync | parity
  | byteOrder | timePerBit | baseTime | payloadLen | mode | activeFrameBits | frameNwords | testWord | bitsLoaded
  | bitPosition | mfBitCount | mfWordCount | dwBitCount | syncCount | syncErrors | saveMode | frameTime
  | pktLen | pktMode | pktBaseTime
deriving DecidableEq, Repr

/-- The offset of a register (20_memory.md R61). -/
def Reg.offset : Reg → Nat
  | .cmd => 0x000
  | .status => 0x008
  | .wordLen => 0x010
  | .frameWords => 0x018
  | .frameBits => 0x020
  | .syncPattern => 0x028
  | .syncMask => 0x030
  | .syncLen => 0x038
  | .minSync => 0x040
  | .parity => 0x048
  | .byteOrder => 0x050
  | .timePerBit => 0x058
  | .baseTime => 0x060
  | .payloadLen => 0x068
  | .mode => 0x070
  | .activeFrameBits => 0x078
  | .frameNwords => 0x080
  | .testWord => 0x088
  | .bitsLoaded => 0x090
  | .bitPosition => 0x098
  | .mfBitCount => 0x0A0
  | .mfWordCount => 0x0A8
  | .dwBitCount => 0x0B0
  | .syncCount => 0x0B8
  | .syncErrors => 0x0C0
  | .saveMode => 0x0C8
  | .frameTime => 0x0D0
  | .pktLen => 0x0D8
  | .pktMode => 0x0E0
  | .pktBaseTime => 0x0E8

/-- Every register of the map. -/
def allRegs : List Reg :=
  [.cmd, .status, .wordLen, .frameWords, .frameBits, .syncPattern, .syncMask, .syncLen, .minSync, .parity,
   .byteOrder, .timePerBit, .baseTime, .payloadLen, .mode, .activeFrameBits, .frameNwords, .testWord, .bitsLoaded,
   .bitPosition, .mfBitCount, .mfWordCount, .dwBitCount, .syncCount, .syncErrors, .saveMode, .frameTime,
   .pktLen, .pktMode, .pktBaseTime]

/-- The register at an offset, if there is one (20_memory.md R61). -/
def regAt (off : Nat) : Option Reg := allRegs.find? fun r => decide (r.offset = off)

/-- What an offset of the window belongs to (20_memory.md R61). -/
inductive Region where
  | register (r : Reg)
  | outWord (i : Nat)
  | outErr (i : Nat)
  | payload (b : Nat)
  | reserved
deriving DecidableEq, Repr

/-- The size of the window in bytes (20_memory.md R60). -/
def windowBytes : Nat := 0x200000

/-- The address map (20_memory.md R61). -/
def regionAt (p : Params) (off : Nat) : Region :=
  if off < 0x010000 then
    match regAt off with
    | some r => .register r
    | none => .reserved
  else if off < 0x020000 then
    if (off - 0x010000) / 8 < p.maxFrameWords then .outWord ((off - 0x010000) / 8) else .reserved
  else if off < 0x030000 then
    if (off - 0x020000) / 8 < p.maxFrameWords then .outErr ((off - 0x020000) / 8) else .reserved
  else if off < 0x100000 then .reserved
  else if off - 0x100000 < p.maxPayloadBytes then .payload (off - 0x100000) else .reserved

/-- The accesses the window accepts (20_memory.md R62): 8 bytes aligned in the register block and the output
RAM; 1, 2, 4 or 8 bytes aligned to their size above, and no access that starts in the payload RAM and runs
past its last byte. DEDUCED (log 7, unsafe for widths below 8): the reserved offsets at and above 0x030000
take the payload RAM's widths. -/
def accessOk (p : Params) (off size : Nat) : Bool :=
  decide (size = 1 ∨ size = 2 ∨ size = 4 ∨ size = 8) && decide (off % size = 0) &&
  (decide (0x030000 ≤ off) || decide (size = 8)) &&
  (decide (off < 0x100000) || decide (p.maxPayloadBytes ≤ off - 0x100000) ||
    decide (off - 0x100000 + size ≤ p.maxPayloadBytes))

/-- What a host read of a register returns (20_memory.md R61, 10_state.md R21 to R46). -/
def readReg (s : State) : Reg → Word
  | .cmd => 0
  | .status => s.statusWord
  | .wordLen => s.regs.wordLen
  | .frameWords => s.regs.frameWords
  | .frameBits => s.regs.frameBits
  | .syncPattern => s.regs.syncPattern
  | .syncMask => s.regs.syncMask
  | .syncLen => s.regs.syncLen
  | .minSync => s.regs.minSync
  | .parity => s.regs.parity
  | .byteOrder => s.regs.byteOrder
  | .timePerBit => s.regs.timePerBit
  | .baseTime => s.packet.baseTime
  | .payloadLen => s.packet.len
  | .mode => s.packet.mode
  | .activeFrameBits => match s.attrs with | none => 0 | some a => a.frameBits
  | .frameNwords => match s.attrs with | none => 0 | some a => a.frameWords - 1
  | .testWord => s.dec.testWord
  | .bitsLoaded => s.dec.bitsLoaded
  | .bitPosition => s.dec.bitPosition
  | .mfBitCount => s.dec.mfBitCount
  | .mfWordCount => s.dec.mfWordCount
  | .dwBitCount => s.dec.dwBitCount
  | .syncCount => s.dec.syncCount
  | .syncErrors => s.dec.syncErrors
  | .saveMode => s.dec.saveMode.number.setWidth 64
  | .frameTime => s.dec.frameTime
  | .pktLen => s.pkt.len
  | .pktMode => s.pkt.mode
  | .pktBaseTime => s.pkt.baseTime

/-- What a host write of a register does (20_memory.md R61, R64): `CMD` hands over a command word and sets
BUSY (43_commands.md R180), a read-write register stores the value, any other ignores it. -/
def writeReg (s : State) (v : Word) : Reg → State
  | .cmd => { s with pendingCmd := some v }
  | .wordLen => { s with regs := { s.regs with wordLen := v } }
  | .frameWords => { s with regs := { s.regs with frameWords := v } }
  | .frameBits => { s with regs := { s.regs with frameBits := v } }
  | .syncPattern => { s with regs := { s.regs with syncPattern := v } }
  | .syncMask => { s with regs := { s.regs with syncMask := v } }
  | .syncLen => { s with regs := { s.regs with syncLen := v } }
  | .minSync => { s with regs := { s.regs with minSync := v } }
  | .parity => { s with regs := { s.regs with parity := v } }
  | .byteOrder => { s with regs := { s.regs with byteOrder := v } }
  | .timePerBit => { s with regs := { s.regs with timePerBit := v } }
  | .baseTime => { s with packet := { s.packet with baseTime := v } }
  | .payloadLen => { s with packet := { s.packet with len := v } }
  | .mode => { s with packet := { s.packet with mode := v } }
  | .status | .activeFrameBits | .frameNwords | .testWord | .bitsLoaded | .bitPosition | .mfBitCount
  | .mfWordCount | .dwBitCount | .syncCount | .syncErrors | .saveMode | .frameTime | .pktLen | .pktMode
  | .pktBaseTime => s

/-- What a host read of `size` bytes at `off` returns (20_memory.md R61, R63, R64). -/
def windowRead (s : State) (off size : Nat) : Word :=
  match regionAt s.params off with
  | .register r => readReg s r
  | .outWord i => s.dec.wordAt i
  | .outErr i => (BitVec.ofBool (s.dec.errAt i)).setWidth 64
  | .payload b => Memory.readLE s.payload b size
  | .reserved => 0

/-- What a host write of `size` bytes at `off` does (20_memory.md R61, R63, R64). -/
def windowWrite (s : State) (off size : Nat) (v : Word) : State :=
  match regionAt s.params off with
  | .register r => writeReg s v r
  | .payload b => s.withPayload (Memory.writeLE s.payload b v size)
  | .outWord _ | .outErr _ | .reserved => s

/-- The host takes a read value (log 4). -/
def hostReceive (s : State) (v : Word) : State := { s with hostData := v }

/-- A host read while BUSY of a location other than `STATUS`: any value of the access's width
(70_reset_and_hazards.md R253), the next free value (log 6). -/
def busyReceive (s : State) (size : Nat) : State :=
  { s with hostData := Config.busyRead s.draws &&& ones (8 * size), draws := s.draws + 1 }

/-- One host access (20_memory.md R62, R64, 70_reset_and_hazards.md R253). -/
def hostAccess (acc : Access) (s : State) : Host.Outcome State Fault Refusal :=
  match acc with
  | .read off size =>
    if windowBytes ≤ off then .fault .outsideWindow
    else if !accessOk s.params off size then .refused .hostAccessShape
    else if s.busy && decide (regionAt s.params off ≠ .register .status) then .next (busyReceive s size)
    else .next (hostReceive s (windowRead s off size))
  | .write off size v =>
    if windowBytes ≤ off then .fault .outsideWindow
    else if !accessOk s.params off size then .refused .hostAccessShape
    else if s.busy then .refused .hostWriteWhileBusy
    else .next (windowWrite s off size v)

end Sys2Proof.Machine
end

