-- ==== Sys2Proof/Machine/Step.lean ====
section
/-! DEFINITION. One step of the machine: the host's next access, or the block's pending command
(00_scope.md R11, 43_commands.md R180). -/

namespace Sys2Proof.Machine

/-- One step: the agent whose turn it is moves (00_scope.md R11; log 2). -/
def step (s : State) : Host.Outcome State Fault Refusal :=
  match nextTurn s with
  | (some a, t) => hostAccess a t
  | (none, t) => blockTurn t

/-- `s` with the table word `w` pending in `CMD` and the block's turn next (log 2). -/
def State.withFetchWord (s : State) (nbits w : Nat) : State :=
  placeCommand s (BitVec.ofNat 64 (w % 2 ^ nbits))

end Sys2Proof.Machine
end

