-- ==== Sys2Proof/Machine/HostAsm.lean ====
section
/-! DEFINITION. The host's assembly syntax and pseudo-instructions (30_encoding.md R86, R87), as the window
accesses they expand to. -/

namespace Sys2Proof.Machine

/-- One line of a host program (30_encoding.md R86, R87). -/
inductive HostLine where
  /-- `WR <REG>, <value>` -/
  | wr (r : Reg) (v : Word)
  /-- `WRP <b>, <hex bytes>` -/
  | wrp (b : Nat) (bytes : List Byte)
  /-- `RD <REG>` -/
  | rd (r : Reg)
  /-- `RDO <i>` -/
  | rdo (i : Nat)
  /-- `<MNEMONIC>`, `FEED_BIT <b>`: the command write alone -/
  | command (i : Instr)
  /-- `WAIT` -/
  | wait
  /-- `DO <MNEMONIC>` -/
  | doCommand (i : Instr)
  /-- `FEEDS "<bits>"` -/
  | feeds (bits : List Bool)
  /-- `EXPECT <REG> = <value>`: it "generates `RD <REG>` and has no effect on the block" -/
  | expect (r : Reg) (v : Word)
deriving DecidableEq, Repr

/-- `WR <REG>, <value>`: an 8-byte write. -/
def wrTurn (r : Reg) (v : Word) : Turn := .host (.write r.offset 8 v)

/-- `RD <REG>`: an 8-byte read. -/
def rdTurn (r : Reg) : Turn := .host (.read r.offset 8)

/-- `WAIT`: the host reads `STATUS` until BUSY is 0. The block performs a command in one step
(70_reset_and_hazards.md R262), so after the block's turn one read of `STATUS` ends the loop (DEDUCED, log 11). -/
def waitTurns : List Turn := [.block, rdTurn .status]

/-- The one-byte writes of `WRP` (30_encoding.md R86). -/
def wrpTurns : Nat → List Byte → List Turn
  | _, [] => []
  | b, x :: xs => .host (.write (0x100000 + b) 1 (x.setWidth 64)) :: wrpTurns (b + 1) xs

/-- The turns a line stands for (30_encoding.md R86, R87). -/
def lineTurns : HostLine → List Turn
  | .wr r v => [wrTurn r v]
  | .wrp b bytes => wrpTurns b bytes
  | .rd r => [rdTurn r]
  | .rdo i => [.host (.read (0x010000 + 8 * i) 8), .host (.read (0x020000 + 8 * i) 8)]
  | .command i => [wrTurn .cmd (encode i)]
  | .wait => waitTurns
  | .doCommand i => wrTurn .cmd (encode i) :: waitTurns
  | .feeds bits => bits.flatMap fun b => wrTurn .cmd (encode (.feedBit b)) :: waitTurns
  | .expect r _ => [rdTurn r]

/-- Give the host a program: its lines in order, after what it already has to do (log 2). -/
def State.withProgram (s : State) (lines : List HostLine) : State :=
  { s with turns := s.turns ++ lines.flatMap lineTurns }

end Sys2Proof.Machine
end

