-- ==== Sys2Proof/Safety.lean ====
section
/-! DEFINITION. The terms that claims about the machine use: the invariant of 10_state.md R53 with what it
needs to be kept by every step, and runs of bits through the synchronizer. -/

namespace Sys2Proof.Machine

/-- The checks of CONFIGURE except LSB_FIRST (43_commands.md R182), on the registers. -/
structure AttrRegs.InRange (r : AttrRegs) : Prop where
  wordLen : 1 ≤ r.wordLen.toNat ∧ r.wordLen.toNat ≤ 64
  frameWords : 2 ≤ r.frameWords.toNat ∧ r.frameWords.toNat ≤ 2 ^ 32 - 1
  syncLen : 1 ≤ r.syncLen.toNat ∧ r.syncLen.toNat ≤ 64
  /-- No mask bit outside the pattern length. -/
  mask : ∀ i, r.syncLen.toNat ≤ i → r.syncMask.getLsbD i = false
  /-- No pattern bit outside the mask. -/
  pattern : ∀ i, r.syncMask.getLsbD i = false → r.syncPattern.getLsbD i = false
  minSync : r.minSync.toNat < 2 ^ 63
  /-- No reserved bit of `PARITY`, and not the reserved mode 3. -/
  parity : r.parity.toNat < 8 ∧ r.parity.toNat % 4 ≠ 3
  /-- No reserved bit of `BYTE_ORDER`. -/
  byteOrder : r.byteOrder.toNat < 4

/-- What a passing CONFIGURE guarantees of the attribute set (43_commands.md R182), and the source's invariant
"frame_bit_length > 0 and word_bit_length ≤ 64" (10_state.md R53). -/
structure Attrs.Valid (a : Attrs) : Prop where
  wordLen : 1 ≤ a.wordLen.toNat ∧ a.wordLen.toNat ≤ 64
  frameWords : 2 ≤ a.frameWords.toNat ∧ a.frameWords.toNat ≤ 2 ^ 32 - 1
  syncLen : 1 ≤ a.syncLen.toNat ∧ a.syncLen.toNat ≤ 64
  mask : ∀ i, a.syncLen.toNat ≤ i → a.syncMask.getLsbD i = false
  pattern : ∀ i, a.syncMask.getLsbD i = false → a.syncPattern.getLsbD i = false
  minSync : a.minSync.toNat < 2 ^ 63
  frameBits : 0 < a.frameBits.toNat

/-- The invariants of 10_state.md R53 that relate the decoder state to the attribute set, with R41's "it holds
-1 exactly until the first sync fire" and 41_word_extractor.md R142's bounds while collecting. -/
structure Decoder.Consistent (p : Params) (a : Attrs) (d : Decoder) : Prop where
  fits : a.frameWords.toNat ≤ p.maxFrameWords
  partialWord : d.dwBitCount.toNat < a.wordLen.toNat
  words : d.mfWordCount.toNat ≤ a.frameWords.toNat
  noSyncYet : d.saveMode = .idle ↔ d.syncCount = -1
  idle : d.saveMode = .idle → d.mfWordCount = 0
  full : d.saveMode = .full → d.mfWordCount = a.frameWords ∧ d.dwBitCount = 0
  collecting : d.saveMode = .collecting → 1 ≤ d.mfWordCount.toNat ∧ d.mfWordCount.toNat < a.frameWords.toNat

/-- The invariant that every step keeps. -/
structure State.Inv (s : State) : Prop where
  params : s.params.wf = true
  attrs : ∀ a, s.attrs = some a → a.Valid
  decoder : s.needsSetup = false → ∃ a, s.attrs = some a ∧ s.dec.Consistent s.params a
  syncCount : -1 ≤ s.dec.syncCount.toInt
  bitsLoaded : s.dec.bitsLoaded.toNat ≤ capLimit
  /-- A valid frame is one no word write has touched since its release (41_word_extractor.md R147). -/
  frameValid : s.dec.frameValid = true →
    s.needsSetup = false ∧ s.dec.saveMode = .collecting ∧ s.dec.mfWordCount = 1
  /-- A packet that DECODE_NEXT may resume passed DECODE_FIRST's checks (43_commands.md R186). -/
  packet : s.pktReady = true → s.needsSetup = false ∧ lengthRefusal s.params s.pkt.len.toNat = none
  /-- Only fatal codes are latched (60_exceptions.md R222). -/
  fatal : ∀ c, s.fatal = some c → c.isFatal = true
  outWord : OutRam.wf 0 s.dec.outWord ∧ ∀ c ∈ s.dec.outWord, c.1 < s.params.maxFrameWords
  outErr : OutRam.wf false s.dec.outErr ∧ ∀ c ∈ s.dec.outErr, c.1 < s.params.maxFrameWords
  payload : Memory.wf s.payload ∧ ∀ c ∈ s.payload, c.1 < s.params.maxPayloadBytes

/-- Since the last sync fire `MF_BIT_COUNT` has counted the bits of the words collected and of the word in
progress; in a FULL frame it has counted at least all data words (70_reset_and_hazards.md R261). -/
def State.FrameCounted (s : State) : Prop :=
  ∀ a, s.needsSetup = false → s.attrs = some a →
    (s.dec.saveMode = .collecting →
      s.dec.mfBitCount.toNat = (s.dec.mfWordCount.toNat - 1) * a.wordLen.toNat + s.dec.dwBitCount.toNat) ∧
    (s.dec.saveMode = .full → (a.frameWords.toNat - 1) * a.wordLen.toNat ≤ s.dec.mfBitCount.toNat)

/-- The illegal command words of 30_encoding.md R83: OP 0x08 to 0xFF, RSV not 0, or BIT = 1 with an OP other
than 0x05. -/
def IllegalWord (c : Word) : Prop :=
  0x08 ≤ c.toNat % 2 ^ 8 ∨ c.toNat / 2 ^ 9 ≠ 0 ∨ (c.toNat / 2 ^ 8 % 2 = 1 ∧ c.toNat % 2 ^ 8 ≠ 0x05)

/-- The codes a command can complete with by itself, not as the latched `FATAL_CODE` (the "y" entries of the
table of 60_exceptions.md R221). -/
def ownCodes : Instr → List ResultCode
  | .nop => [.ok]
  | .configure => [.ok, .unsupported, .invalidParameter]
  | .setup => [.ok, .invalidParameter, .bufferTooSmall]
  | .decodeFirst => [.frame, .noMoreData, .unsupported, .invalidData, .bufferTooSmall, .bufferOverrun]
  | .decodeNext => [.frame, .noMoreData, .unsupported, .illegalCommand]
  | .feedBit _ => [.ok, .frame, .illegalCommand]
  | .swapBytes => [.ok, .noMoreData, .invalidData, .bufferOverrun]
  | .swapShorts => [.ok, .noMoreData, .invalidData, .bufferOverrun]

/-- The commands that the fatal latch blocks (60_exceptions.md R223). -/
def blockedByLatch : Instr → Bool
  | .decodeFirst | .decodeNext | .feedBit _ => true
  | .nop | .configure | .setup | .swapBytes | .swapShorts => false

/-- The decoder state DECODE_FIRST runs on: the setup values when setup is needed (43_commands.md R185 step 7). -/
def firstDecoder (s : State) : Decoder := if s.needsSetup then Decoder.setupValue else s.dec

/-- A decoder state with the packet cursor and the last timestamp left out of sight (40_bit_sync.md R114). -/
def Decoder.streamPart (d : Decoder) : Decoder := { d with bitPosition := 0, frameTime := 0 }

/-- The same decoder state but for the last timestamp and the cursor, which is `n` bits further on in `d`
(40_bit_sync.md R114). -/
def Decoder.SameStream (n : Nat) (d d' : Decoder) : Prop :=
  d.streamPart = d'.streamPart ∧ d.bitPosition.toNat = n + d'.bitPosition.toNat

/-- The decoder state after a list of bits, first bit first, by STEP (40_bit_sync.md R101). -/
def feedAll (a : Attrs) (base : Word) : List Bool → Decoder → Decoder
  | [], d => d
  | b :: bs, d => feedAll a base bs (stepBit a base b d).1

/-- Does STEP release a frame at some bit of the list? -/
def anyRelease (a : Attrs) (base : Word) : List Bool → Decoder → Bool
  | [], _ => false
  | b :: bs, d => (stepBit a base b d).2 || anyRelease a base bs (stepBit a base b d).1

/-- Does the sync test fire at some bit of the list (40_bit_sync.md R105)? -/
def anyFire (a : Attrs) (base : Word) : List Bool → Decoder → Bool
  | [], _ => false
  | b :: bs, d => syncTest a (loadBit b d) || anyFire a base bs (stepBit a base b d).1

/-- The number a list of bits spells, first bit most significant (41_word_extractor.md R149). -/
def bitsNumber (bs : List Bool) : Nat := bs.foldl (fun n b => 2 * n + b.toNat) 0

/-- The stream bits `i`, `i+1`, ... , `n` of them, of the data region (40_bit_sync.md R100). -/
def streamBits (p : Params) (m : List Host.Cell) (i n : Nat) : List Bool :=
  (List.range n).map fun k => bitAt p m (i + k)

/-- FEED_BIT commands for the bits of a list in order, stopping after the first that completes with `FRAME`
(30_encoding.md R87 `FEEDS`). -/
def feedCommands : List Bool → State → Host.Outcome State Fault Refusal
  | [], s => .next s
  | b :: bs, s =>
    match exec (.feedBit b) s with
    | .next t => if t.result = .frame then .next t else feedCommands bs t
    | .fault r => .fault r
    | .refused r => .refused r

end Sys2Proof.Machine
end

