-- ==== Sys2Proof/Certificates/Slice0/Obligations.lean ====
section
/-! DEFINITION. The statements for the provers. Each docstring says which rules of spec/ it formalises. -/

open Sys2Proof Sys2Proof.Machine

/-! ### Command words -/

/-- Command words written out from 30_encoding.md R82 and R88, and three illegal ones (R83). -/
def Obligations.CommandWordsDecode : Prop :=
  decode 0x0000000000000000 = .ok .nop ∧
  decode 0x0000000000000001 = .ok .configure ∧
  decode 0x0000000000000002 = .ok .setup ∧
  decode 0x0000000000000003 = .ok .decodeFirst ∧
  decode 0x0000000000000004 = .ok .decodeNext ∧
  decode 0x0000000000000005 = .ok (.feedBit false) ∧
  decode 0x0000000000000105 = .ok (.feedBit true) ∧
  decode 0x0000000000000006 = .ok .swapBytes ∧
  decode 0x0000000000000007 = .ok .swapShorts ∧
  decode 0x0000000000000106 = .error .strayBit ∧
  decode 0x0000000000000008 = .error .reservedOpcode ∧
  decode 0x0000000000000205 = .error .reservedBits

/-- The decoder reads a command from a word exactly when the word is that command's encoding (30_encoding.md
R80 to R83): decode and encode agree in both directions, for every command and every 64-bit word. -/
def Obligations.DecodeAndEncodeAgree : Prop :=
  ∀ (c : Word) (i : Instr), decode c = .ok i ↔ c = encode i

/-- The words 30_encoding.md R83 calls illegal are exactly those the decoder rejects. On the block's turn such a
pending word completes with `ILLEGAL_COMMAND` and changes nothing else, the fatal latch set or not. Whose turn it
is is the model's own (DESIGN CHOICE, log 2): an empty turn list is the block's turn, and a listed block turn is
taken off the list. -/
def Obligations.IllegalWordCompletesIllegalCommand : Prop :=
  (∀ c : Word, IllegalWord c ↔ ∃ e, decode c = .error e) ∧
  ∀ (s : State) (c : Word), s.pendingCmd = some c → IllegalWord c →
    (s.turns = [] → step s = .next { s with result := .illegalCommand, pendingCmd := none }) ∧
    ∀ rest, s.turns = .block :: rest →
      step s = .next { s with turns := rest, result := .illegalCommand, pendingCmd := none }

/-! ### Steps -/

/-- On the block's turn a step is `exec` of the decoded pending command (43_commands.md R180). The turn list is
the model's own (log 2): the block's turn is taken off it. -/
def Obligations.StepRunsTheDecodedCommand : Prop :=
  ∀ (s : State) (c : Word) (i : Instr), s.pendingCmd = some c → decode c = .ok i →
    (s.turns = [] → step s = exec i s) ∧
    ∀ rest, s.turns = .block :: rest → step s = exec i { s with turns := rest }

/-- On the host's turn a step is the host's access; with no command pending the block's turn changes nothing
but the turn list (00_scope.md R11; the turn list is the model's own, log 2). -/
def Obligations.StepWithoutACommand : Prop :=
  ∀ (s : State) (rest : List Turn),
    (∀ a, s.turns = .host a :: rest → step s = hostAccess a { s with turns := rest }) ∧
    (s.pendingCmd = none → s.turns = [] → step s = .next s) ∧
    (s.pendingCmd = none → s.turns = .block :: rest → step s = .next { s with turns := rest })

/-! ### NOP, CONFIGURE, SETUP -/

/-- NOP (43_commands.md R181). -/
def Obligations.NopCompletesOk : Prop :=
  ∀ s : State, exec .nop s = .next { s with result := .ok, pendingCmd := none }

/-- CONFIGURE (43_commands.md R182): the four status writes whatever the checks say, the attribute set latched
when all pass, `INVALID_PARAMETER` when a range check fails, `UNSUPPORTED` when only LSB_FIRST does. -/
def Obligations.ConfigureValidatesAndLatches : Prop :=
  ∀ s : State,
    (s.regs.InRange → s.regs.byteOrder.getLsbD 1 = false →
      exec .configure s = .next
        { s with
          attrs := some
            { wordLen := s.regs.wordLen, frameWords := s.regs.frameWords
              frameBits :=
                if s.regs.frameBits = 0 then
                  BitVec.ofNat 64 (s.regs.wordLen.toNat * (s.regs.frameWords.toNat - 1) + s.regs.syncLen.toNat)
                else s.regs.frameBits
              syncPattern := s.regs.syncPattern, syncMask := s.regs.syncMask, syncLen := s.regs.syncLen
              minSync := s.regs.minSync
              parityMode :=
                if s.regs.parity.toNat % 4 = 0 then .none else if s.regs.parity.toNat % 4 = 1 then .odd else .even
              parityPos := if s.regs.parity.getLsbD 2 then .trailing else .leading
              byteSwap := s.regs.byteOrder.getLsbD 0
              timePerBit := s.regs.timePerBit }
          needsSetup := true, pktReady := false, dec := { s.dec with frameValid := false }
          result := .ok, pendingCmd := none }) ∧
    (¬ s.regs.InRange →
      exec .configure s = .next
        { s with
          attrs := none, needsSetup := true, pktReady := false, dec := { s.dec with frameValid := false }
          fatal := some .invalidParameter, result := .invalidParameter, pendingCmd := none }) ∧
    (s.regs.InRange → s.regs.byteOrder.getLsbD 1 = true →
      exec .configure s = .next
        { s with
          attrs := none, needsSetup := true, pktReady := false, dec := { s.dec with frameValid := false }
          fatal := some .unsupported, result := .unsupported, pendingCmd := none })

/-- The frame length of a latched attribute set (10_state.md R24), with no overflow (43_commands.md R182). -/
def Obligations.FrameLengthIsGivenOrDerived : Prop :=
  ∀ s : State, s.regs.InRange → s.regs.byteOrder.getLsbD 1 = false →
    ∃ t a, exec .configure s = .next t ∧ t.attrs = some a ∧
      a.frameBits.toNat =
        if s.regs.frameBits.toNat ≠ 0 then s.regs.frameBits.toNat
        else s.regs.wordLen.toNat * (s.regs.frameWords.toNat - 1) + s.regs.syncLen.toNat

/-- SETUP (43_commands.md R184): the values of 10_state.md R52, or one of its two fatal results. -/
def Obligations.SetupResetsTheDecoder : Prop :=
  ∀ s : State,
    (∀ a, s.attrs = some a → a.frameWords.toNat ≤ s.params.maxFrameWords →
      exec .setup s = .next
        { s with
          dec :=
            { testWord := 0, bitsLoaded := 0, bitPosition := 0, mfBitCount := 0, mfWordCount := 0
              dwBitCount := 0, syncCount := -1, syncErrors := 0, saveMode := .idle, frameTime := 0
              outWord := [], outErr := [], frameValid := false }
          pktReady := false, needsSetup := false, fatal := none, result := .ok, pendingCmd := none }) ∧
    (∀ a, s.attrs = some a → s.params.maxFrameWords < a.frameWords.toNat →
      exec .setup s = .next
        { s with pktReady := false, fatal := some .bufferTooSmall, result := .bufferTooSmall, pendingCmd := none }) ∧
    (s.attrs = none →
      exec .setup s = .next
        { s with
          pktReady := false, fatal := some .invalidParameter, result := .invalidParameter, pendingCmd := none })

/-! ### DECODE_FIRST and DECODE_NEXT -/

/-- The refusals of DECODE_FIRST before its setup (43_commands.md R185 steps 1 to 7, R190): each keeps exactly
the effects of the steps before it (60_exceptions.md R228). -/
def Obligations.DecodeFirstRefusesBeforeSetup : Prop :=
  ∀ s : State,
    (∀ c, s.fatal = some c → exec .decodeFirst s = .next { s with result := c, pendingCmd := none }) ∧
    (s.fatal = none → s.attrs = none →
      exec .decodeFirst s = .next
        { s with pktReady := false, fatal := some .unsupported, result := .unsupported, pendingCmd := none }) ∧
    (∀ a, s.fatal = none → s.attrs = some a → s.packet.len.toNat < s.params.csdwBytes →
      exec .decodeFirst s = .next
        { s with pktReady := false, pkt := s.packet, result := .noMoreData, pendingCmd := none }) ∧
    (∀ a, s.fatal = none → s.attrs = some a → s.params.csdwBytes ≤ s.packet.len.toNat →
      s.params.maxPayloadBytes < s.packet.len.toNat →
      exec .decodeFirst s = .next
        { s with pktReady := false, pkt := s.packet, result := .bufferOverrun, pendingCmd := none }) ∧
    (∀ a, s.fatal = none → s.attrs = some a → s.params.csdwBytes ≤ s.packet.len.toNat →
      s.packet.len.toNat ≤ s.params.maxPayloadBytes → s.needsSetup = true →
      s.params.maxFrameWords < a.frameWords.toNat →
      exec .decodeFirst s = .next
        { s with
          pktReady := false, pkt := s.packet, fatal := some .bufferTooSmall, result := .bufferTooSmall
          pendingCmd := none })

/-- The refusals of DECODE_FIRST after its setup (43_commands.md R185 steps 8 and 9, 42_byte_swap.md R164): the
setup has happened, the payload is unchanged. -/
def Obligations.DecodeFirstRefusesAfterSetup : Prop :=
  ∀ (s : State) (a : Attrs), s.fatal = none → s.attrs = some a → s.params.csdwBytes ≤ s.packet.len.toNat →
    s.packet.len.toNat ≤ s.params.maxPayloadBytes →
    (s.needsSetup = true → a.frameWords.toNat ≤ s.params.maxFrameWords) →
    (s.packet.mode.getLsbD 0 = false →
      exec .decodeFirst s = .next
        { s with
          pktReady := false, pkt := s.packet, dec := firstDecoder s, needsSetup := false
          fatal := some .unsupported, result := .unsupported, pendingCmd := none }) ∧
    (s.packet.mode.getLsbD 0 = true → a.byteSwap = true →
      ((s.packet.len.toNat - s.params.csdwBytes) % 2 ≠ 0 ∨
        (s.packet.mode.getLsbD 1 = true ∧ (s.packet.len.toNat - s.params.csdwBytes) % 4 ≠ 0)) →
      exec .decodeFirst s = .next
        { s with
          pktReady := false, pkt := s.packet, dec := firstDecoder s, needsSetup := false
          result := .invalidData, pendingCmd := none })

/-- DECODE_FIRST of an accepted packet (43_commands.md R185 steps 4, 7, 9, 10 and 11): the packet registers
latched, setup when it was needed, the fixup's payload, `BIT_POSITION` 0, then RUN on the latched packet. -/
def Obligations.DecodeFirstRunsTheNewPacket : Prop :=
  ∀ (s : State) (a : Attrs) (m : List Host.Cell), s.fatal = none → s.attrs = some a →
    s.params.csdwBytes ≤ s.packet.len.toNat → s.packet.len.toNat ≤ s.params.maxPayloadBytes →
    (s.needsSetup = true → a.frameWords.toNat ≤ s.params.maxFrameWords) →
    s.packet.mode.getLsbD 0 = true → byteSwapFixup s.params a s.packet s.payload = .ok m →
    exec .decodeFirst s = .next
      { s with
        pkt := s.packet, pktReady := true, needsSetup := false, payload := m
        dec := (run s.params a s.packet m { firstDecoder s with bitPosition := 0 }).1
        result := if (run s.params a s.packet m { firstDecoder s with bitPosition := 0 }).2 then .frame else .noMoreData
        pendingCmd := none }

/-- What the byte-order fixup of DECODE_FIRST leaves in every byte of the payload RAM (42_byte_swap.md R164,
R165): nothing swapped, the two bytes of every 16-bit unit exchanged, or the four bytes of every 32-bit unit
reversed, and only in the data region. The two exchanges are PRESUMED (log 13): R160 and R161 mark "swap bytes" and
"swap shorts" as read "[from general knowledge, not in source]". -/
def Obligations.DecodeFirstSwapsTheDataRegion : Prop :=
  ∀ (s : State) (a : Attrs), s.fatal = none → s.attrs = some a →
    s.params.csdwBytes ≤ s.packet.len.toNat → s.packet.len.toNat ≤ s.params.maxPayloadBytes →
    (s.needsSetup = true → a.frameWords.toNat ≤ s.params.maxFrameWords) → s.packet.mode.getLsbD 0 = true →
    (a.byteSwap = false → ∃ t, exec .decodeFirst s = .next t ∧ t.payload = s.payload) ∧
    (a.byteSwap = true → s.packet.mode.getLsbD 1 = false → (s.packet.len.toNat - s.params.csdwBytes) % 2 = 0 →
      ∃ t, exec .decodeFirst s = .next t ∧ ∀ b,
        Memory.read t.payload b =
          if s.params.csdwBytes ≤ b ∧ b < s.packet.len.toNat then
            Memory.read s.payload (if (b - s.params.csdwBytes) % 2 = 0 then b + 1 else b - 1)
          else Memory.read s.payload b) ∧
    (a.byteSwap = true → s.packet.mode.getLsbD 1 = true → (s.packet.len.toNat - s.params.csdwBytes) % 4 = 0 →
      ∃ t, exec .decodeFirst s = .next t ∧ ∀ b,
        Memory.read t.payload b =
          if s.params.csdwBytes ≤ b ∧ b < s.packet.len.toNat then
            Memory.read s.payload (b - (b - s.params.csdwBytes) % 4 + (3 - (b - s.params.csdwBytes) % 4))
          else Memory.read s.payload b)

/-- DECODE_NEXT (43_commands.md R186): the latched code, `UNSUPPORTED`, `ILLEGAL_COMMAND`, or RUN on the packet
as DECODE_FIRST latched it. -/
def Obligations.DecodeNextResumesThePacket : Prop :=
  ∀ s : State,
    (∀ c, s.fatal = some c → exec .decodeNext s = .next { s with result := c, pendingCmd := none }) ∧
    (s.fatal = none → s.attrs = none →
      exec .decodeNext s = .next { s with fatal := some .unsupported, result := .unsupported, pendingCmd := none }) ∧
    (∀ a, s.fatal = none → s.attrs = some a → s.pktReady = false →
      exec .decodeNext s = .next { s with result := .illegalCommand, pendingCmd := none }) ∧
    (∀ a, s.fatal = none → s.attrs = some a → s.pktReady = true →
      exec .decodeNext s = .next
        { s with
          dec := (run s.params a s.pkt s.payload s.dec).1
          result := if (run s.params a s.pkt s.payload s.dec).2 then .frame else .noMoreData
          pendingCmd := none })

/-- RUN (40_bit_sync.md R112), as the equation of its pseudocode: while bits are left, STEP on the bit at
`BIT_POSITION`; a release ends it with `FRAME`, the end of the bits with `NO_MORE_DATA`. The bound is R112's
"callers ensure", with room to spare: a length of at most `MAX_PAYLOAD_BYTES` gives at most 2^23 bits. -/
def Obligations.RunFollowsItsLoop : Prop :=
  ∀ (p : Params) (a : Attrs) (pkt : Packet) (m : List Host.Cell) (d : Decoder), dataBits p pkt < 2 ^ 64 →
    dataBits p pkt = 8 * (pkt.len.toNat - p.csdwBytes) ∧
    (dataBits p pkt ≤ d.bitPosition.toNat → run p a pkt m d = (d, false)) ∧
    (d.bitPosition.toNat < dataBits p pkt →
      ((stepBit a pkt.baseTime (bitAt p m d.bitPosition.toNat) d).2 = true →
        run p a pkt m d = ((stepBit a pkt.baseTime (bitAt p m d.bitPosition.toNat) d).1, true)) ∧
      ((stepBit a pkt.baseTime (bitAt p m d.bitPosition.toNat) d).2 = false →
        run p a pkt m d = run p a pkt m (stepBit a pkt.baseTime (bitAt p m d.bitPosition.toNat) d).1)) ∧
    ∀ s : State, runPacket a s =
      { s with
        dec := (run s.params a s.pkt s.payload s.dec).1
        result := if (run s.params a s.pkt s.payload s.dec).2 then .frame else .noMoreData
        pendingCmd := none }

/-- A RUN that releases nothing feeds every bit left of the data region, in stream order, none skipped or
repeated, and leaves `BIT_POSITION` at the end (40_bit_sync.md R112, 70_reset_and_hazards.md R264). -/
def Obligations.RunWithoutReleaseFeedsEveryBit : Prop :=
  ∀ (p : Params) (a : Attrs) (pkt : Packet) (m : List Host.Cell) (d : Decoder), dataBits p pkt < 2 ^ 64 →
    d.bitPosition.toNat ≤ dataBits p pkt → (run p a pkt m d).2 = false →
    (run p a pkt m d).1 =
      feedAll a pkt.baseTime (streamBits p m d.bitPosition.toNat (dataBits p pkt - d.bitPosition.toNat)) d ∧
    (run p a pkt m d).1.bitPosition.toNat = dataBits p pkt

/-- DECODE_NEXT does what FEED_BIT does for the stream bits from `BIT_POSITION` on, one command a bit, until one
of them completes with `FRAME`; only the code of a run without release differs (40_bit_sync.md R112,
43_commands.md R186, R187). -/
def Obligations.DecodeNextEqualsFeedBits : Prop :=
  ∀ (s : State) (a : Attrs), s.fatal = none → s.needsSetup = false → s.attrs = some a → s.pktReady = true →
    dataBits s.params s.pkt < 2 ^ 64 → s.dec.bitPosition.toNat < dataBits s.params s.pkt →
    ∃ t u, exec .decodeNext s = .next t ∧
      feedCommands
        (streamBits s.params s.payload s.dec.bitPosition.toNat (dataBits s.params s.pkt - s.dec.bitPosition.toNat)) s =
        .next u ∧
      t = { u with result := if u.result = .frame then .frame else .noMoreData }

/-- Splitting a packet's bits over two packets keeps its releases, each at its stream bit, with the same words and
counters, and with the same timestamp when the second packet's base continues the first's (40_bit_sync.md R114).
Run after run, from any cursor: a run that releases in the first packet is the whole packet's run; one that uses the
first packet up is continued by the second packet's first run; and a later run of the second packet, resumed where
the last one stopped, is the whole packet's next one. -/
def Obligations.SplittingAPacketKeepsItsReleases : Prop :=
  ∀ (p : Params) (a : Attrs) (whole first second : Packet) (m m1 m2 : List Host.Cell),
    dataBits p whole = dataBits p first + dataBits p second → dataBits p whole < 2 ^ 64 →
    (∀ i, i < dataBits p first → bitAt p m i = bitAt p m1 i) →
    (∀ i, i < dataBits p second → bitAt p m (dataBits p first + i) = bitAt p m2 i) →
    (∀ d : Decoder, (run p a first m1 d).2 = true → first.baseTime = whole.baseTime →
      run p a whole m d = run p a first m1 d) ∧
    (∀ d : Decoder, d.bitPosition.toNat ≤ dataBits p first → (run p a first m1 d).2 = false →
      run p a whole m d = run p a whole m (run p a first m1 d).1 ∧
      Decoder.SameStream (dataBits p first) (run p a first m1 d).1
        { (run p a first m1 d).1 with bitPosition := 0 }) ∧
    ∀ d d' : Decoder, Decoder.SameStream (dataBits p first) d d' →
      (run p a whole m d).2 = (run p a second m2 d').2 ∧
      Decoder.SameStream (dataBits p first) (run p a whole m d).1 (run p a second m2 d').1 ∧
      ((run p a whole m d).2 = true → dataBits p first * a.timePerBit.toNat % 2 ^ 32 = 0 →
        second.baseTime =
          BitVec.ofInt 64 (whole.baseTime.toInt + (dataBits p first * a.timePerBit.toNat / 2 ^ 32 : Nat)) →
        (run p a whole m d).1.frameTime = (run p a second m2 d').1.frameTime)

/-- Stream bit 8k+j is bit 7-j of data byte k (40_bit_sync.md R100). -/
def Obligations.StreamBitsAreMostSignificantFirst : Prop :=
  ∀ (p : Params) (m : List Host.Cell) (k j : Nat), j < 8 →
    bitAt p m (8 * k + j) = (Memory.read m (p.csdwBytes + k)).getLsbD (7 - j)

/-! ### FEED_BIT: one bit step -/

/-- SHIFT, COUNT and CAP (40_bit_sync.md R102, R103, R104) on their registers; the others are kept. The cap's
literals 10^12 and 10^9 are PRESUMED (log 13): R104 calls them unaudited. That the cap never changes the outcome of
the sync test is R104's own inference ("[derived: from rule R105]"). -/
def Obligations.EveryBitIsShiftedCountedAndCapped : Prop :=
  ∀ (b : Bool) (d : Decoder), d.bitsLoaded.toNat + 1 < 2 ^ 64 →
    (loadBit b d).testWord.toNat = (2 * d.testWord.toNat + b.toNat) % 2 ^ 64 ∧
    (loadBit b d).bitsLoaded.toNat =
      (if 10 ^ 12 < d.bitsLoaded.toNat + 1 then 10 ^ 9 else d.bitsLoaded.toNat + 1) ∧
    (loadBit b d).mfBitCount.toNat = min (d.mfBitCount.toNat + 1) (2 ^ 64 - 1) ∧
    (loadBit b d).bitPosition.toNat = min (d.bitPosition.toNat + 1) (2 ^ 64 - 1) ∧
    loadBit b d =
      { d with
        testWord := (loadBit b d).testWord, bitsLoaded := (loadBit b d).bitsLoaded
        mfBitCount := (loadBit b d).mfBitCount, bitPosition := (loadBit b d).bitPosition } ∧
    ∀ a : Attrs, a.Valid → syncTest a (capLoaded d) = syncTest a d

/-- The sync test (40_bit_sync.md R105): the gate and the masked comparison; for an attribute set CONFIGURE can
latch, it fires exactly when enough bits are loaded and every bit under the mask is the pattern's, and the
pattern itself matches. -/
def Obligations.SyncFiresOnAnExactMaskedMatch : Prop :=
  ∀ (a : Attrs) (d : Decoder),
    (syncTest a d = true ↔ a.syncLen.toNat ≤ d.bitsLoaded.toNat ∧ d.testWord &&& a.syncMask = a.syncPattern) ∧
    (a.Valid →
      (syncTest a d = true ↔
        a.syncLen.toNat ≤ d.bitsLoaded.toNat ∧
        ∀ i, a.syncMask.getLsbD i = true → d.testWord.getLsbD i = a.syncPattern.getLsbD i) ∧
      (a.syncLen.toNat ≤ d.bitsLoaded.toNat → syncTest a { d with testWord := a.syncPattern } = true))

/-- FEED_BIT before setup or with the latch set writes only its result (43_commands.md R187, R191). The last
clause is the model's own (log 3): the state R187 calls impossible, setup done and no attribute set, stops by
name. -/
def Obligations.FeedBitIsRefusedBeforeSetup : Prop :=
  ∀ (s : State) (b : Bool),
    (∀ c, s.fatal = some c → exec (.feedBit b) s = .next { s with result := c, pendingCmd := none }) ∧
    (s.fatal = none → s.needsSetup = true →
      exec (.feedBit b) s = .next { s with result := .illegalCommand, pendingCmd := none }) ∧
    (s.fatal = none → s.needsSetup = false → s.attrs = none → exec (.feedBit b) s = .fault .noAttributeSet)

/-- FEED_BIT with no sync fire while IDLE or FULL: the bit is shifted in and counted, nothing is stored
(40_bit_sync.md R111). -/
def Obligations.FeedBitOutsideAFrameOnlyCounts : Prop :=
  ∀ (s : State) (a : Attrs) (b : Bool), s.fatal = none → s.needsSetup = false → s.attrs = some a →
    syncTest a (loadBit b s.dec) = false → s.dec.saveMode ≠ .collecting →
    exec (.feedBit b) s = .next { s with dec := loadBit b s.dec, result := .ok, pendingCmd := none }

/-- FEED_BIT at a sync fire with `MF_BIT_COUNT ≠ A.frame_bits` (40_bit_sync.md R109, R110): `SYNC_COUNT` 0, an
error, saturating at 2^64-1 (00_scope.md R8), unless it is the first sync, the frame restarted, nothing released. -/
def Obligations.FeedBitAtAWrongOffsetRestarts : Prop :=
  (∀ v : Word, (satInc v).toNat = min (v.toNat + 1) (2 ^ 64 - 1)) ∧
  ∀ (s : State) (a : Attrs) (b : Bool), s.fatal = none → s.needsSetup = false → s.attrs = some a →
    syncTest a (loadBit b s.dec) = true → (loadBit b s.dec).mfBitCount ≠ a.frameBits →
    exec (.feedBit b) s = .next
      { s with
        dec :=
          { loadBit b s.dec with
            syncErrors := if s.dec.syncCount = -1 then s.dec.syncErrors else satInc s.dec.syncErrors
            syncCount := 0, mfBitCount := 0, mfWordCount := 1, dwBitCount := 0, saveMode := .collecting }
        result := .ok, pendingCmd := none }

/-- FEED_BIT at a sync fire with `MF_BIT_COUNT = A.frame_bits` (40_bit_sync.md R106, R107, R110): the signed count
goes up by one, saturating at 2^63-1, and a FULL frame is released when the incremented count reaches
`A.min_sync`. -/
def Obligations.FeedBitAtTheCorrectOffsetReleases : Prop :=
  (∀ v : Word, (satIncSigned v).toInt = min (v.toInt + 1) (2 ^ 63 - 1)) ∧
  ∀ (s : State) (a : Attrs) (b : Bool), s.fatal = none → s.needsSetup = false → s.attrs = some a →
    syncTest a (loadBit b s.dec) = true → (loadBit b s.dec).mfBitCount = a.frameBits →
    (s.dec.saveMode = .full ∧ (a.minSync.toNat : Int) ≤ (satIncSigned s.dec.syncCount).toInt →
      exec (.feedBit b) s = .next
        { s with
          dec :=
            { loadBit b s.dec with
              syncCount := satIncSigned s.dec.syncCount
              frameTime := timestamp a s.pkt.baseTime (loadBit b s.dec).bitPosition, frameValid := true
              mfBitCount := 0, mfWordCount := 1, dwBitCount := 0, saveMode := .collecting }
          result := .frame, pendingCmd := none }) ∧
    (¬ (s.dec.saveMode = .full ∧ (a.minSync.toNat : Int) ≤ (satIncSigned s.dec.syncCount).toInt) →
      exec (.feedBit b) s = .next
        { s with
          dec :=
            { loadBit b s.dec with
              syncCount := satIncSigned s.dec.syncCount
              mfBitCount := 0, mfWordCount := 1, dwBitCount := 0, saveMode := .collecting }
          result := .ok, pendingCmd := none })

/-- FEED_BIT while COLLECTING, the word not complete (41_word_extractor.md R140). -/
def Obligations.FeedBitCollectsABit : Prop :=
  ∀ (s : State) (a : Attrs) (b : Bool), s.fatal = none → s.needsSetup = false → s.attrs = some a →
    syncTest a (loadBit b s.dec) = false → s.dec.saveMode = .collecting → s.dec.dwBitCount + 1 ≠ a.wordLen →
    exec (.feedBit b) s = .next
      { s with
        dec := { loadBit b s.dec with dwBitCount := s.dec.dwBitCount + 1 }, result := .ok, pendingCmd := none }

/-- FEED_BIT that completes a word (41_word_extractor.md R140 to R144, R147): the low `A.word_len` bits of
`TEST_WORD` and their parity flag go to slot `MF_WORD_COUNT - 1`, no other slot changes, `FRAME_VALID` is
cleared, and the last word makes the frame FULL. R142's slot needs `MF_WORD_COUNT` at least 1, as the invariant has
it while COLLECTING; at 0, a state no run reaches, slot 0 is the model's truncated subtraction (DEDUCED, log 10). -/
def Obligations.FeedBitStoresACompletedWord : Prop :=
  ∀ (s : State) (a : Attrs) (b : Bool), s.fatal = none → s.needsSetup = false → s.attrs = some a →
    a.wordLen.toNat ≤ 64 → syncTest a (loadBit b s.dec) = false → s.dec.saveMode = .collecting →
    s.dec.dwBitCount + 1 = a.wordLen →
    ∃ t, exec (.feedBit b) s = .next t ∧
      t =
        { s with
          dec :=
            { loadBit b s.dec with
              outWord := t.dec.outWord, outErr := t.dec.outErr, frameValid := false, dwBitCount := 0
              mfWordCount := s.dec.mfWordCount + 1
              saveMode := if s.dec.mfWordCount + 1 = a.frameWords then .full else .collecting }
          result := .ok, pendingCmd := none } ∧
      (∀ i, (t.dec.wordAt (s.dec.mfWordCount.toNat - 1)).getLsbD i =
        (decide (i < a.wordLen.toNat) && (loadBit b s.dec).testWord.getLsbD i)) ∧
      t.dec.errAt (s.dec.mfWordCount.toNat - 1) =
        parityError a.parityMode (t.dec.wordAt (s.dec.mfWordCount.toNat - 1)) ∧
      ∀ j, j ≠ s.dec.mfWordCount.toNat - 1 → t.dec.wordAt j = s.dec.wordAt j ∧ t.dec.errAt j = s.dec.errAt j

/-- The transition table of `SAVE_MODE` (40_bit_sync.md R113), with its "released" column. -/
def Obligations.SaveModeFollowsItsTable : Prop :=
  ∀ (a : Attrs) (base : Word) (b : Bool) (d : Decoder),
    (syncTest a (loadBit b d) = true → (stepBit a base b d).1.saveMode = .collecting) ∧
    (syncTest a (loadBit b d) = false → d.saveMode ≠ .collecting → (stepBit a base b d).1.saveMode = d.saveMode) ∧
    (syncTest a (loadBit b d) = false → d.saveMode = .collecting →
      (stepBit a base b d).1.saveMode =
        if d.dwBitCount + 1 = a.wordLen ∧ d.mfWordCount + 1 = a.frameWords then .full else .collecting) ∧
    ((stepBit a base b d).2 = true ↔
      d.saveMode = .full ∧ syncTest a (loadBit b d) = true ∧ (loadBit b d).mfBitCount = a.frameBits ∧
      (a.minSync.toNat : Int) ≤ (satIncSigned d.syncCount).toInt)

/-- `TEST_WORD` holds the last 64 bits fed, the most recent in bit 0, over what it held before
(10_state.md R35). -/
def Obligations.TestWordHoldsTheLastBitsFed : Prop :=
  ∀ (a : Attrs) (base : Word) (bs : List Bool) (d : Decoder) (k : Nat), k < 64 →
    (feedAll a base bs d).testWord.getLsbD k =
      if k < bs.length then bs.getD (bs.length - 1 - k) false else d.testWord.getLsbD (k - bs.length)

/-- A data word is exactly the `A.word_len` stream bits fed since the previous word write or sync fire, the
earliest in its most significant bit (41_word_extractor.md R149), and no other slot is written. R149's last
sentence is left to R261 (b), which contradicts it (log 14). At `MF_WORD_COUNT` 0, which no run reaches while
COLLECTING, slot 0 is the model's truncated subtraction (DEDUCED, log 10). -/
def Obligations.DataWordsAreTheStreamBits : Prop :=
  ∀ (a : Attrs) (base : Word) (bs : List Bool) (d : Decoder), 1 ≤ a.wordLen.toNat → a.wordLen.toNat ≤ 64 →
    bs.length = a.wordLen.toNat → d.saveMode = .collecting → d.dwBitCount = 0 → anyFire a base bs d = false →
    (feedAll a base bs d).wordAt (d.mfWordCount.toNat - 1) = BitVec.ofNat 64 (bitsNumber bs) ∧
    (∀ j, j ≠ d.mfWordCount.toNat - 1 → (feedAll a base bs d).wordAt j = d.wordAt j) ∧
    (feedAll a base bs d).mfWordCount = d.mfWordCount + 1 ∧ (feedAll a base bs d).dwBitCount = 0

/-- A frame is released only when it is bracketed by two sync fires exactly `A.frame_bits` bits apart, with none
between them (40_bit_sync.md R107): the released bit is a fire, and so is the bit that many bits earlier. -/
def Obligations.ReleasedFramesAreBracketed : Prop :=
  ∀ (a : Attrs) (base : Word) (bs : List Bool) (b : Bool), bs.length < 2 ^ 64 - 1 →
    (stepBit a base b (feedAll a base bs Decoder.setupValue)).2 = true →
    syncTest a (loadBit b (feedAll a base bs Decoder.setupValue)) = true ∧
    ∃ before fire between, bs = before ++ fire :: between ∧
      syncTest a (loadBit fire (feedAll a base before Decoder.setupValue)) = true ∧
      anyFire a base between (feedAll a base (before ++ [fire]) Decoder.setupValue) = false ∧
      between.length + 1 = a.frameBits.toNat

/-- With `A.frame_bits` at most `(A.frame_words - 1) * A.word_len` nothing is ever released, whatever is fed
after setup (70_reset_and_hazards.md R261 (c)). -/
def Obligations.TooShortFramesAreNeverReleased : Prop :=
  ∀ (a : Attrs) (base : Word) (bs : List Bool), a.Valid →
    a.frameBits.toNat ≤ (a.frameWords.toNat - 1) * a.wordLen.toNat →
    anyRelease a base bs Decoder.setupValue = false

/-- The first sync of a session counts no error and releases nothing, at either offset (40_bit_sync.md R109,
R117; 90_conflicts.md C6). -/
def Obligations.FirstSyncIsNoErrorAndNoRelease : Prop :=
  ∀ (s : State) (b : Bool), s.Inv → s.fatal = none → s.needsSetup = false → s.dec.syncCount = -1 →
    ∃ t, exec (.feedBit b) s = .next t ∧ t.result = .ok ∧ t.dec.syncErrors = s.dec.syncErrors ∧
      t.dec.frameTime = s.dec.frameTime ∧ t.dec.frameValid = s.dec.frameValid

/-- The timestamp is the base plus the offset's whole ticks, rounded toward minus infinity, modulo 2^64
(40_bit_sync.md R108). -/
def Obligations.TimestampRoundsTowardMinusInfinity : Prop :=
  ∀ (a : Attrs) (base pos : Word) (ticks : Int),
    ticks * 2 ^ 32 ≤ ((pos.toNat : Int) - a.frameBits.toNat) * a.timePerBit.toNat →
    ((pos.toNat : Int) - a.frameBits.toNat) * a.timePerBit.toNat < (ticks + 1) * 2 ^ 32 →
    timestamp a base pos = BitVec.ofInt 64 (base.toInt + ticks)

/-- The parity flag (41_word_extractor.md R144): NONE never errs, EVEN errs on an odd number of set bits, ODD on
an even number, and flipping any single bit turns the flag. -/
def Obligations.ParityFlagCountsSetBits : Prop :=
  ∀ w : Word,
    parityError .none w = false ∧
    (parityError .even w = true ↔ (Finset.univ.filter fun i : Fin 64 => w.getLsbD i = true).card % 2 = 1) ∧
    (parityError .odd w = true ↔ (Finset.univ.filter fun i : Fin 64 => w.getLsbD i = true).card % 2 = 0) ∧
    ∀ mode i, i < 64 → mode ≠ ParityMode.none →
      parityError mode (w ^^^ BitVec.twoPow 64 i) = !parityError mode w

/-! ### The swaps -/

/-- SWAP_BYTES on an accepted length (43_commands.md R188, 42_byte_swap.md R160): the two bytes of every 16-bit
unit of the data region exchanged, every other byte and everything but the result unchanged. The exchange is
PRESUMED (log 13): R160 says that this meaning of "swap bytes" is "[from general knowledge, not in source]". -/
def Obligations.SwapBytesExchangesBytePairs : Prop :=
  ∀ s : State, s.params.csdwBytes ≤ s.packet.len.toNat → s.packet.len.toNat ≤ s.params.maxPayloadBytes →
    (s.packet.len.toNat - s.params.csdwBytes) % 2 = 0 →
    ∃ t, exec .swapBytes s = .next t ∧
      t = { s with payload := t.payload, result := .ok, pendingCmd := none } ∧
      (∀ k, 2 * k < s.packet.len.toNat - s.params.csdwBytes →
        Memory.read t.payload (s.params.csdwBytes + 2 * k) = Memory.read s.payload (s.params.csdwBytes + 2 * k + 1) ∧
        Memory.read t.payload (s.params.csdwBytes + 2 * k + 1) = Memory.read s.payload (s.params.csdwBytes + 2 * k)) ∧
      ∀ b, (b < s.params.csdwBytes ∨ s.packet.len.toNat ≤ b) → Memory.read t.payload b = Memory.read s.payload b

/-- SWAP_SHORTS on an accepted length (43_commands.md R189, 42_byte_swap.md R161): the two 16-bit halves of every
32-bit unit of the data region exchanged, every other byte and everything but the result unchanged. The exchange is
PRESUMED (log 13): R161 says that this meaning of "swap shorts" is "[from general knowledge, not in source]". -/
def Obligations.SwapShortsExchangesHalves : Prop :=
  ∀ s : State, s.params.csdwBytes ≤ s.packet.len.toNat → s.packet.len.toNat ≤ s.params.maxPayloadBytes →
    (s.packet.len.toNat - s.params.csdwBytes) % 4 = 0 →
    ∃ t, exec .swapShorts s = .next t ∧
      t = { s with payload := t.payload, result := .ok, pendingCmd := none } ∧
      (∀ k j, 4 * k < s.packet.len.toNat - s.params.csdwBytes → j < 4 →
        Memory.read t.payload (s.params.csdwBytes + 4 * k + j) =
          Memory.read s.payload (s.params.csdwBytes + 4 * k + (j + 2) % 4)) ∧
      ∀ b, (b < s.params.csdwBytes ∨ s.packet.len.toNat ≤ b) → Memory.read t.payload b = Memory.read s.payload b

/-- The refused lengths of the standalone swaps (43_commands.md R188 to R190, 42_byte_swap.md R162): only the
result is written, in every state. -/
def Obligations.SwapsRefuseBadLengths : Prop :=
  ∀ (i : Instr) (unit : Nat), (i = .swapBytes ∧ unit = 2 ∨ i = .swapShorts ∧ unit = 4) → ∀ s : State,
    (s.packet.len.toNat < s.params.csdwBytes →
      exec i s = .next { s with result := .noMoreData, pendingCmd := none }) ∧
    (s.params.csdwBytes ≤ s.packet.len.toNat → s.params.maxPayloadBytes < s.packet.len.toNat →
      exec i s = .next { s with result := .bufferOverrun, pendingCmd := none }) ∧
    (s.params.csdwBytes ≤ s.packet.len.toNat → s.packet.len.toNat ≤ s.params.maxPayloadBytes →
      (s.packet.len.toNat - s.params.csdwBytes) % unit ≠ 0 →
      exec i s = .next { s with result := .invalidData, pendingCmd := none })

/-- The algebra of the swaps (42_byte_swap.md R165): each is an involution, they commute, and the one after the
other reverses every 32-bit unit. R165 is the spec's own inference ("[derived: from rules R160 and R161]") over two
permutations that are PRESUMED (log 13). -/
def Obligations.SwapsAreCommutingInvolutions : Prop :=
  ∀ (p : Params) (len : Nat) (m : List Host.Cell),
    ((len - p.csdwBytes) % 2 = 0 → ∃ m1 m2, swap16 p len m = .ok m1 ∧ swap16 p len m1 = .ok m2 ∧
      ∀ b, Memory.read m2 b = Memory.read m b) ∧
    ((len - p.csdwBytes) % 4 = 0 → ∃ m1 m2, swap32 p len m = .ok m1 ∧ swap32 p len m1 = .ok m2 ∧
      ∀ b, Memory.read m2 b = Memory.read m b) ∧
    ((len - p.csdwBytes) % 4 = 0 → ∃ m1 m2 n1 n2, swap16 p len m = .ok m1 ∧ swap32 p len m1 = .ok m2 ∧
      swap32 p len m = .ok n1 ∧ swap16 p len n1 = .ok n2 ∧ (∀ b, Memory.read m2 b = Memory.read n2 b) ∧
      ∀ k j, 4 * k < len - p.csdwBytes → j < 4 →
        Memory.read m2 (p.csdwBytes + 4 * k + j) = Memory.read m (p.csdwBytes + 4 * k + (3 - j)))

/-! ### Rules over every command -/

/-- The codes each command can complete with (60_exceptions.md R221): its own while the latch is clear or does
not block it, the latched code while it does. -/
def Obligations.CommandsCompleteWithTheirOwnCodes : Prop :=
  ∀ (i : Instr) (s t : State), exec i s = .next t →
    (s.fatal = none ∨ blockedByLatch i = false → t.result ∈ ownCodes i) ∧
    ∀ c, s.fatal = some c → blockedByLatch i = true → t.result = c

/-- A fatal result sets the latch with its code; any other result leaves the latch or clears it; a latch that is
already set is changed only by CONFIGURE and SETUP (60_exceptions.md R222). -/
def Obligations.FatalResultsSetTheLatch : Prop :=
  ∀ (i : Instr) (s t : State), exec i s = .next t →
    (t.result.isFatal = true → t.fatal = some t.result) ∧
    (t.result.isFatal = false → t.fatal = s.fatal ∨ t.fatal = none) ∧
    (s.fatal ≠ none → t.fatal ≠ s.fatal → i = .configure ∨ i = .setup) ∧
    ∀ c : ResultCode, c.isFatal = true ↔ c = .unsupported ∨ c = .invalidParameter ∨ c = .bufferTooSmall

/-- Only a SETUP that completes with `OK` clears the latch, and it resets the decoder state
(60_exceptions.md R224). -/
def Obligations.OnlySetupClearsTheLatch : Prop :=
  ∀ (i : Instr) (s t : State), exec i s = .next t → s.fatal ≠ none → t.fatal = none →
    i = .setup ∧ t.result = .ok ∧ t.dec = Decoder.setupValue ∧ t.needsSetup = false

/-- While the latch is set, DECODE_FIRST, DECODE_NEXT and FEED_BIT complete with its code and change nothing else
(60_exceptions.md R223). -/
def Obligations.LatchBlocksDecoding : Prop :=
  ∀ (i : Instr) (s : State) (c : ResultCode), blockedByLatch i = true → s.fatal = some c →
    exec i s = .next { s with result := c, pendingCmd := none }

/-- Which commands write which registers: none the host's registers or the parameters (10_state.md R21, R33),
only CONFIGURE the active set (R32), only DECODE_FIRST the latched packet registers (R34), only it and the swaps
the payload RAM (R48), none of NOP and the swaps the decoder state or the output RAM; each clears BUSY
(43_commands.md R180). -/
def Obligations.EachRegisterGroupHasItsWriters : Prop :=
  ∀ (i : Instr) (s t : State), exec i s = .next t →
    t.regs = s.regs ∧ t.packet = s.packet ∧ t.params = s.params ∧ t.turns = s.turns ∧
    t.hostData = s.hostData ∧ t.draws = s.draws ∧ t.pendingCmd = none ∧
    (i ≠ .configure → t.attrs = s.attrs) ∧
    (i ≠ .decodeFirst → t.pkt = s.pkt) ∧
    (i ≠ .decodeFirst → i ≠ .swapBytes → i ≠ .swapShorts → t.payload = s.payload) ∧
    (i = .nop ∨ i = .swapBytes ∨ i = .swapShorts →
      t.dec = s.dec ∧ t.needsSetup = s.needsSetup ∧ t.pktReady = s.pktReady ∧ t.fatal = s.fatal)

/-- No command changes a descriptor byte or a byte at or past `PAYLOAD_LEN` (42_byte_swap.md R163). -/
def Obligations.OnlyDataRegionBytesAreSwapped : Prop :=
  ∀ (i : Instr) (s t : State), exec i s = .next t →
    ∀ b, b < s.params.csdwBytes ∨ s.packet.len.toNat ≤ b → Memory.read t.payload b = Memory.read s.payload b

/-- Every step keeps the invariant (10_state.md R53 with the bounds it needs): the ranges of the active set, the
relations of the decoder state to it, the capacities, the canonical form of the two RAMs. -/
def Obligations.EveryStepKeepsTheInvariant : Prop :=
  ∀ s t : State, s.Inv → step s = .next t → t.Inv

/-- The power-on state of every legal instance meets the invariant (10_state.md R51, R53). -/
def Obligations.PowerOnMeetsTheInvariant : Prop :=
  (∀ p : Params, p.wf = true → (State.powerOn p).Inv) ∧ State.reset.Inv

/-- In a state that meets the invariant every command completes: no fault, no refusal (43_commands.md R187's
"so STEP always has an attribute set", 60_exceptions.md R228). -/
def Obligations.CommandsNeverStopUnderTheInvariant : Prop :=
  ∀ (i : Instr) (s : State), s.Inv → ∃ t, exec i s = .next t

/-! ### The window -/

/-- Payload byte b is at window offset 0x100000 + b (20_memory.md R61, R65). A host access of it is little-endian
(20_memory.md R63): a read assembles the bytes from the lowest up, a write touches only its own bytes and reads
back. The window ends at 0x200000 (20_memory.md R60). -/
def Obligations.PayloadAccessesAreLittleEndian : Prop :=
  ∀ (s : State) (b size : Nat) (v : Word), s.busy = false → (size = 1 ∨ size = 2 ∨ size = 4 ∨ size = 8) →
    b % size = 0 → b + size ≤ s.params.maxPayloadBytes → b < 0x100000 →
    (∃ w, hostAccess (.read (0x100000 + b) size) s = .next { s with hostData := w } ∧
      (∀ k, k < size → w.extractLsb' (8 * k) 8 = Memory.read s.payload (b + k)) ∧ w.toNat < 2 ^ (8 * size)) ∧
    ∃ t u, hostAccess (.write (0x100000 + b) size v) s = .next t ∧ t = { s with payload := t.payload } ∧
      (∀ k, k < size → Memory.read t.payload (b + k) = v.extractLsb' (8 * k) 8) ∧
      (∀ a, (a < b ∨ b + size ≤ a) → Memory.read t.payload a = Memory.read s.payload a) ∧
      hostAccess (.read (0x100000 + b) size) t = .next u ∧ u.hostData.toNat = v.toNat % 2 ^ (8 * size)

/-- A host read changes no block state: only the model's own record of what the host read and of how many free
values were drawn (20_memory.md R64; logs 4 and 6). -/
def Obligations.HostReadsChangeNoBlockState : Prop :=
  ∀ (s t : State) (off size : Nat), hostAccess (.read off size) s = .next t →
    t = { s with hostData := t.hostData, draws := t.draws }

/-- The register rows of the table of 20_memory.md R61, as numbers: at its offset each register reads the field
that 10_state.md gives it; a write of `CMD` hands over a command word and a write of a read-write register stores
the value in that field, with no other effect; a write of a read-only register or of `STATUS` is ignored
(20_memory.md R64). So a read-write register reads back what was written, and no other register's read changes. -/
def Obligations.RegistersAnswerAtTheirOffsets : Prop :=
  ∀ (s : State) (v : Word), s.busy = false →
    (∀ c ∈
      [((0x000 : Nat), (0 : Word)), (0x008, s.statusWord), (0x010, s.regs.wordLen), (0x018, s.regs.frameWords),
       (0x020, s.regs.frameBits), (0x028, s.regs.syncPattern), (0x030, s.regs.syncMask),
       (0x038, s.regs.syncLen), (0x040, s.regs.minSync), (0x048, s.regs.parity), (0x050, s.regs.byteOrder),
       (0x058, s.regs.timePerBit), (0x060, s.packet.baseTime), (0x068, s.packet.len), (0x070, s.packet.mode),
       (0x078, match s.attrs with | none => 0 | some a => a.frameBits),
       (0x080, match s.attrs with | none => 0 | some a => a.frameWords - 1), (0x088, s.dec.testWord),
       (0x090, s.dec.bitsLoaded), (0x098, s.dec.bitPosition), (0x0A0, s.dec.mfBitCount),
       (0x0A8, s.dec.mfWordCount), (0x0B0, s.dec.dwBitCount), (0x0B8, s.dec.syncCount),
       (0x0C0, s.dec.syncErrors),
       (0x0C8, if s.dec.saveMode = .idle then 0 else if s.dec.saveMode = .collecting then 1 else 2),
       (0x0D0, s.dec.frameTime), (0x0D8, s.pkt.len), (0x0E0, s.pkt.mode), (0x0E8, s.pkt.baseTime)],
      hostAccess (.read c.1 8) s = .next { s with hostData := c.2 }) ∧
    (∀ c ∈
      [((0x000 : Nat), { s with pendingCmd := some v }),
       (0x010, { s with regs := { s.regs with wordLen := v } }),
       (0x018, { s with regs := { s.regs with frameWords := v } }),
       (0x020, { s with regs := { s.regs with frameBits := v } }),
       (0x028, { s with regs := { s.regs with syncPattern := v } }),
       (0x030, { s with regs := { s.regs with syncMask := v } }),
       (0x038, { s with regs := { s.regs with syncLen := v } }),
       (0x040, { s with regs := { s.regs with minSync := v } }),
       (0x048, { s with regs := { s.regs with parity := v } }),
       (0x050, { s with regs := { s.regs with byteOrder := v } }),
       (0x058, { s with regs := { s.regs with timePerBit := v } }),
       (0x060, { s with packet := { s.packet with baseTime := v } }),
       (0x068, { s with packet := { s.packet with len := v } }),
       (0x070, { s with packet := { s.packet with mode := v } })],
      hostAccess (.write c.1 8 v) s = .next c.2) ∧
    (∀ off ∈
      [(0x008 : Nat), 0x078, 0x080, 0x088, 0x090, 0x098, 0x0A0, 0x0A8, 0x0B0, 0x0B8, 0x0C0, 0x0C8, 0x0D0, 0x0D8,
       0x0E0, 0x0E8],
      hostAccess (.write off 8 v) s = .next s) ∧
    ∀ off ∈
      [(0x010 : Nat), 0x018, 0x020, 0x028, 0x030, 0x038, 0x040, 0x048, 0x050, 0x058, 0x060, 0x068, 0x070],
      ∃ t, hostAccess (.write off 8 v) s = .next t ∧
        hostAccess (.read off 8) t = .next { t with hostData := v } ∧
        ∀ off' w, off' < 0x0F0 → off' ≠ off → hostAccess (.read off' 8) s = .next { s with hostData := w } →
          hostAccess (.read off' 8) t = .next { t with hostData := w }

/-- A host write to `CMD` hands over the command word and sets BUSY, and does nothing else (43_commands.md R180,
10_state.md R46). -/
def Obligations.CommandWriteSetsBusy : Prop :=
  ∀ (s : State) (c : Word), s.busy = false →
    hostAccess (.write 0x000 8 c) s = .next { s with pendingCmd := some c } ∧
    ({ s with pendingCmd := some c } : State).busy = true

/-- While BUSY a host write is refused, `STATUS` reads as it is, and a read of any other register returns a value
nothing constrains (70_reset_and_hazards.md R253; the free value is log 6). -/
def Obligations.AccessesWhileBusy : Prop :=
  ∀ s : State, s.busy = true →
    (∀ off size v, off < windowBytes → accessOk s.params off size = true →
      hostAccess (.write off size v) s = .refused .hostWriteWhileBusy) ∧
    hostAccess (.read 0x008 8) s = .next { s with hostData := s.statusWord } ∧
    ∀ off size, off < windowBytes → accessOk s.params off size = true → regionAt s.params off ≠ .register .status →
      ∃ v, hostAccess (.read off size) s = .next { s with hostData := v, draws := s.draws + 1 } ∧
        v.toNat < 2 ^ (8 * size)

/-- The accesses the window accepts (20_memory.md R62), and that any other is refused, in the window of 0x200000
bytes (R60); an offset outside it faults (log 8). The widths of the reserved offsets at and above 0x030000 are the
model's choice (log 7). -/
def Obligations.MalformedAccessesAreRefused : Prop :=
  ∀ (s : State) (off size : Nat) (v : Word),
    (off < 0x200000 →
      ¬ ((size = 1 ∨ size = 2 ∨ size = 4 ∨ size = 8) ∧ off % size = 0 ∧ (off < 0x030000 → size = 8) ∧
          (0x100000 ≤ off → off - 0x100000 < s.params.maxPayloadBytes →
            off - 0x100000 + size ≤ s.params.maxPayloadBytes)) →
      hostAccess (.read off size) s = .refused .hostAccessShape ∧
      hostAccess (.write off size v) s = .refused .hostAccessShape) ∧
    (0x200000 ≤ off →
      hostAccess (.read off size) s = .fault .outsideWindow ∧
      hostAccess (.write off size v) s = .fault .outsideWindow)

/-- The reserved offsets of the table of 20_memory.md R61 read 0 and ignore writes (20_memory.md R64, 93 U5), and
the output RAM is read-only and reads its entries (20_memory.md R61, 10_state.md R47). That a reserved offset at or
above 0x030000 takes accesses of every width is the model's (DEDUCED, log 7, unsafe for widths below 8): R62 does
not give the widths there. -/
def Obligations.ReservedAndOutputOffsets : Prop :=
  ∀ (s : State) (v : Word), s.busy = false →
    (∀ off size : Nat, (size = 1 ∨ size = 2 ∨ size = 4 ∨ size = 8) → off % size = 0 → (off < 0x030000 → size = 8) →
      ((0x0F0 ≤ off ∧ off ≤ 0x00FFFF) ∨ (0x030000 ≤ off ∧ off ≤ 0x0FFFFF) ∨
        (∃ i, s.params.maxFrameWords ≤ i ∧ i < 8192 ∧ (off = 0x010000 + 8 * i ∨ off = 0x020000 + 8 * i)) ∨
        ∃ b, s.params.maxPayloadBytes ≤ b ∧ b < 0x100000 ∧ off = 0x100000 + b) →
      hostAccess (.read off size) s = .next { s with hostData := 0 } ∧ hostAccess (.write off size v) s = .next s) ∧
    ∀ i, i < s.params.maxFrameWords → i < 8192 →
      hostAccess (.read (0x010000 + 8 * i) 8) s = .next { s with hostData := s.dec.wordAt i } ∧
      hostAccess (.write (0x010000 + 8 * i) 8 v) s = .next s ∧
      hostAccess (.read (0x020000 + 8 * i) 8) s = .next { s with hostData := if s.dec.errAt i then 1 else 0 } ∧
      hostAccess (.write (0x020000 + 8 * i) 8 v) s = .next s

/-- The fields of `STATUS` at their bits (10_state.md R45), the nine numbers of the result codes (60_exceptions.md
R220), and the codes of `SAVE_MODE` (10_state.md R43). -/
def Obligations.StatusFieldsAreAtTheirBits : Prop :=
  (∀ s : State,
    s.statusWord.getLsbD 0 = s.pendingCmd.isSome ∧ s.statusWord.getLsbD 1 = s.attrs.isSome ∧
    s.statusWord.getLsbD 2 = s.needsSetup ∧ s.statusWord.getLsbD 3 = s.fatal.isSome ∧
    s.statusWord.getLsbD 4 = s.dec.frameValid ∧ s.statusWord.getLsbD 5 = s.pktReady ∧
    s.statusWord.extractLsb' 6 2 = 0 ∧ s.statusWord.extractLsb' 8 8 = s.result.number ∧
    (s.fatal = none → s.statusWord.extractLsb' 16 8 = 0) ∧
    (∀ c, s.fatal = some c → s.statusWord.extractLsb' 16 8 = c.number) ∧
    s.statusWord.extractLsb' 24 40 = 0) ∧
  (ResultCode.ok.number = 0 ∧ ResultCode.frame.number = 1 ∧ ResultCode.noMoreData.number = 2 ∧
    ResultCode.unsupported.number = 3 ∧ ResultCode.invalidParameter.number = 4 ∧
    ResultCode.invalidData.number = 5 ∧ ResultCode.bufferTooSmall.number = 6 ∧
    ResultCode.bufferOverrun.number = 7 ∧ ResultCode.illegalCommand.number = 8) ∧
  SaveMode.idle.number = 0 ∧ SaveMode.collecting.number = 1 ∧ SaveMode.full.number = 2

/-- The power-on state (10_state.md R51, R52; 70_reset_and_hazards.md R250) of the instance with the default
parameters of 00_scope.md R6 (log 1). Of these `CSDW_BYTES = 4` is PRESUMED (log 13): R6 marks it
"[from general knowledge, not in source]". The model's own fields are left out (logs 2, 4, 6). -/
def Obligations.PowerOnValues : Prop :=
  State.reset.params.maxFrameWords = 8192 ∧ State.reset.params.maxPayloadBytes = 2 ^ 20 ∧
  State.reset.params.csdwBytes = 4 ∧
  State.reset.regs =
    { wordLen := 0, frameWords := 0, frameBits := 0, syncPattern := 0, syncMask := 0, syncLen := 0, minSync := 0,
      parity := 0, byteOrder := 0, timePerBit := 0 } ∧
  State.reset.packet = { len := 0, mode := 0, baseTime := 0 } ∧
  State.reset.pkt = { len := 0, mode := 0, baseTime := 0 } ∧ State.reset.attrs = none ∧
  State.reset.dec.testWord = 0 ∧ State.reset.dec.bitsLoaded = 0 ∧ State.reset.dec.bitPosition = 0 ∧
  State.reset.dec.mfBitCount = 0 ∧ State.reset.dec.mfWordCount = 0 ∧ State.reset.dec.dwBitCount = 0 ∧
  State.reset.dec.syncCount = -1 ∧ State.reset.dec.syncErrors = 0 ∧ State.reset.dec.saveMode = .idle ∧
  State.reset.dec.frameTime = 0 ∧
  (∀ i, State.reset.dec.wordAt i = 0 ∧ State.reset.dec.errAt i = false) ∧
  State.reset.result = .ok ∧ State.reset.statusWord = 0x4 ∧
  ∀ b, cellAt State.reset.payload b = none

/-! ### The bits of a frame -/

/-- Every step keeps the relation of `MF_BIT_COUNT` to the words collected, from which 70_reset_and_hazards.md R261
derives when FULL is reached (40_bit_sync.md R103, R110; 41_word_extractor.md R140, R143). -/
def Obligations.EveryStepKeepsTheFrameCount : Prop :=
  ∀ s t : State, s.Inv → s.FrameCounted → step s = .next t → t.FrameCounted

/-- The power-on state of every instance meets that relation (10_state.md R51, R52). -/
def Obligations.PowerOnMeetsTheFrameCount : Prop :=
  (∀ p : Params, (State.powerOn p).FrameCounted) ∧ State.reset.FrameCounted

/-- With `A.frame_bits` at most `(A.frame_words - 1) * A.word_len` no command completes with `FRAME`, from any state
that meets the two invariants (70_reset_and_hazards.md R261 (c)); in particular the commands that decode answer a
next state with another result. -/
def Obligations.TooShortFramesCompleteNoCommandWithFrame : Prop :=
  ∀ (i : Instr) (s : State) (a : Attrs), s.Inv → s.FrameCounted → s.attrs = some a →
    a.frameBits.toNat ≤ (a.frameWords.toNat - 1) * a.wordLen.toNat →
    ∃ t, exec i s = .next t ∧ t.result ≠ .frame
end

