-- ==== Sys2Proof/Laws/Memory.lean ====
section
/-! SUPPORT. The laws of the two RAMs: a read after a write gives the value written, a write leaves every other
place alone, and every operation keeps the canonical form. -/

namespace Sys2Proof.Machine

section
variable {α : Type}

theorem cellAt_putCell (m : List (Nat × α)) (a b : Nat) (v : α) :
    cellAt (putCell m a v) b = if b = a then some v else cellAt m b := by
  induction m with
  | nil => simp [putCell, cellAt]
  | cons c m ih =>
    obtain ⟨k, w⟩ := c
    simp only [putCell]
    split_ifs with h1 h2 h3 h4 <;> simp_all [cellAt]

theorem cellAt_dropCell (m : List (Nat × α)) (a b : Nat) :
    cellAt (dropCell m a) b = if b = a then none else cellAt m b := by
  induction m with
  | nil => simp [dropCell, cellAt]
  | cons c m ih =>
    obtain ⟨k, w⟩ := c
    simp only [dropCell, List.filter_cons] at ih ⊢
    by_cases hk : k = a
    · subst hk
      by_cases hb : b = k <;> simp_all [cellAt]
    · by_cases hb : b = k
      · subst hb; simp_all [cellAt]
      · simp_all [cellAt]

theorem mem_putCell {m : List (Nat × α)} {a : Nat} {v : α} {c : Nat × α} (h : c ∈ putCell m a v) :
    c = (a, v) ∨ c ∈ m := by
  induction m with
  | nil => simpa [putCell] using h
  | cons e m ih =>
    obtain ⟨k, w⟩ := e
    simp only [putCell] at h
    split_ifs at h with h1 h2
    · simpa using h
    · simp only [List.mem_cons] at h ⊢; tauto
    · simp only [List.mem_cons] at h ⊢; tauto

theorem rising_putCell {m : List (Nat × α)} (h : Rising m) (a : Nat) (v : α) : Rising (putCell m a v) := by
  induction m with
  | nil => simp [putCell]
  | cons e m ih =>
    obtain ⟨k, w⟩ := e
    obtain ⟨hk, hm⟩ := List.pairwise_cons.1 h
    simp only [putCell]
    split_ifs with h1 h2
    · refine List.pairwise_cons.2 ⟨?_, h⟩
      intro c hc
      rcases List.mem_cons.1 hc with rfl | hc
      · exact h1
      · exact lt_trans h1 (hk c hc)
    · subst h2; exact List.pairwise_cons.2 ⟨hk, hm⟩
    · refine List.pairwise_cons.2 ⟨?_, ih hm⟩
      intro c hc
      rcases mem_putCell hc with rfl | hc
      · show k < a; omega
      · exact hk c hc

theorem rising_dropCell {m : List (Nat × α)} (h : Rising m) (a : Nat) : Rising (dropCell m a) :=
  h.sublist List.filter_sublist

theorem mem_dropCell {m : List (Nat × α)} {a : Nat} {c : Nat × α} (h : c ∈ dropCell m a) : c ∈ m :=
  (List.mem_filter.1 h).1

theorem mem_cellAt {m : List (Nat × α)} {a : Nat} {v : α} (h : cellAt m a = some v) : (a, v) ∈ m := by
  induction m with
  | nil => simp [cellAt] at h
  | cons e m ih =>
    obtain ⟨k, w⟩ := e
    simp only [cellAt] at h
    split_ifs at h with hk
    · subst hk; simp_all
    · exact List.mem_cons_of_mem _ (ih h)

/-- An output RAM read after a write. -/
@[simp] theorem OutRam.read_write [DecidableEq α] (d : α) (m : List (Nat × α)) (i j : Nat) (v : α) :
    OutRam.read d (OutRam.write d m i v) j = if j = i then v else OutRam.read d m j := by
  unfold OutRam.read OutRam.write
  split_ifs with hv hj hj <;> simp [cellAt_dropCell, cellAt_putCell, hj, hv]

theorem OutRam.mem_write [DecidableEq α] {d : α} {m : List (Nat × α)} {i : Nat} {v : α} {c : Nat × α}
    (h : c ∈ OutRam.write d m i v) : c = (i, v) ∨ c ∈ m := by
  unfold OutRam.write at h
  split_ifs at h
  · exact .inr (mem_dropCell h)
  · exact mem_putCell h

/-- An output RAM write keeps the canonical form. -/
theorem OutRam.write_wf [DecidableEq α] {d : α} {m : List (Nat × α)} (h : OutRam.wf d m) (i : Nat) (v : α) :
    OutRam.wf d (OutRam.write d m i v) := by
  unfold OutRam.write
  split_ifs with hv
  · exact ⟨rising_dropCell h.1 i, fun c hc => h.2 c (mem_dropCell hc)⟩
  · refine ⟨rising_putCell h.1 i v, fun c hc => ?_⟩
    rcases mem_putCell hc with rfl | hc
    · exact hv
    · exact h.2 c hc

end

/-- A payload read after a write. -/
@[simp] theorem Memory.read_write (m : List Host.Cell) (a b : Nat) (v : Byte) :
    Memory.read (Memory.write m a v) b = if b = a then v else Memory.read m b := by
  unfold Memory.read Memory.write
  rw [cellAt_putCell]
  split_ifs <;> rfl

/-- A payload write keeps the canonical form. -/
theorem Memory.write_wf {m : List Host.Cell} (h : Memory.wf m) (a : Nat) (v : Byte) : Memory.wf (Memory.write m a v) :=
  rising_putCell h a v

theorem Memory.mem_write {m : List Host.Cell} {a : Nat} {v : Byte} {c : Host.Cell} (h : c ∈ Memory.write m a v) :
    c = (a, v) ∨ c ∈ m := mem_putCell h

/-- A payload read after an n-byte little-endian write (20_memory.md R63). -/
theorem Memory.read_writeLE (m : List Host.Cell) (a : Nat) (v : Word) (n b : Nat) :
    Memory.read (Memory.writeLE m a v n) b =
      if a ≤ b ∧ b < a + n then v.extractLsb' (8 * (b - a)) 8 else Memory.read m b := by
  induction n with
  | zero => simp [Memory.writeLE]
  | succ n ih =>
    simp only [Memory.writeLE, Memory.read_write, ih]
    by_cases hb : b = a + n
    · subst hb; simp
    · rw [if_neg hb]
      congr 1
      simp only [eq_iff_iff]
      omega

theorem Memory.writeLE_wf {m : List Host.Cell} (h : Memory.wf m) (a : Nat) (v : Word) (n : Nat) :
    Memory.wf (Memory.writeLE m a v n) := by
  induction n with
  | zero => exact h
  | succ n ih => exact Memory.write_wf ih _ _

theorem Memory.mem_writeLE {m : List Host.Cell} {a : Nat} {v : Word} {n : Nat} {c : Host.Cell}
    (h : c ∈ Memory.writeLE m a v n) : (a ≤ c.1 ∧ c.1 < a + n) ∨ c ∈ m := by
  induction n with
  | zero => exact .inr h
  | succ n ih =>
    rcases Memory.mem_write h with rfl | h
    · exact .inl ⟨Nat.le_add_right _ _, by omega⟩
    · rcases ih h with h | h
      · exact .inl ⟨h.1, by omega⟩
      · exact .inr h

/-- The bits of an n-byte little-endian read (20_memory.md R63). -/
theorem Memory.getLsbD_readLE (m : List Host.Cell) (a n i : Nat) :
    (Memory.readLE m a n).getLsbD i =
      (decide (i < 8 * n) && decide (i < 64) && (Memory.read m (a + i / 8)).getLsbD (i % 8)) := by
  induction n generalizing a i with
  | zero => simp [Memory.readLE]
  | succ n ih =>
    simp only [Memory.readLE, BitVec.getLsbD_or, BitVec.getLsbD_shiftLeft, BitVec.getLsbD_setWidth, ih]
    by_cases h8 : i < 8
    · have h0 : i / 8 = 0 := by omega
      have h1 : i % 8 = i := by omega
      simp [h8, h0, h1, show i < 8 * (n + 1) by omega, show i < 64 by omega]
    · have h0 : a + 1 + (i - 8) / 8 = a + i / 8 := by omega
      have h1 : (i - 8) % 8 = i % 8 := by omega
      have h2 : (Memory.read m a).getLsbD i = false := BitVec.getLsbD_of_ge _ _ (by omega)
      rw [h0, h1, h2]
      by_cases h64 : i < 64
      · have hd : decide (i - 8 < 8 * n) = decide (i < 8 * (n + 1)) := decide_eq_decide.2 (by omega)
        simp [h8, h64, hd, show i - 8 < 64 by omega]
      · simp [h64]

/-- Two canonical lists that hold the same values are the same list. -/
theorem rising_ext {α : Type} {m n : List (Nat × α)} (hm : Rising m) (hn : Rising n)
    (h : ∀ a, cellAt m a = cellAt n a) : m = n := by
  induction m generalizing n with
  | nil =>
    cases n with
    | nil => rfl
    | cons e n => have := h e.1; simp [cellAt] at this
  | cons e m ih =>
    cases n with
    | nil => have := h e.1; simp [cellAt] at this
    | cons f n =>
      obtain ⟨k, v⟩ := e
      obtain ⟨l, w⟩ := f
      obtain ⟨hk, hm'⟩ := List.pairwise_cons.1 hm
      obtain ⟨hl, hn'⟩ := List.pairwise_cons.1 hn
      have hkl : k = l := by
        by_contra hne
        have h1 := h k
        have h2 := h l
        simp only [cellAt, if_true, if_neg hne, if_neg (Ne.symm hne)] at h1 h2
        have a1 := hl _ (mem_cellAt h1.symm)
        have a2 := hk _ (mem_cellAt h2)
        simp only at a1 a2
        omega
      subst hkl
      have hv : v = w := by simpa [cellAt] using h k
      subst hv
      congr 1
      refine ih hm' hn' fun a => ?_
      by_cases ha : a = k
      · subst ha
        have e1 : cellAt m a = none := by
          by_contra hc
          obtain ⟨x, hx⟩ := Option.ne_none_iff_exists'.1 hc
          exact absurd (hk _ (mem_cellAt hx)) (lt_irrefl _)
        have e2 : cellAt n a = none := by
          by_contra hc
          obtain ⟨x, hx⟩ := Option.ne_none_iff_exists'.1 hc
          exact absurd (hl _ (mem_cellAt hx)) (lt_irrefl _)
        rw [e1, e2]
      · simpa [cellAt, ha] using h a

end Sys2Proof.Machine
end

