-- ==== Sys2Proof/Laws/State.lean ====
section
/-! SUPPORT. One lemma per field per update, true by rfl, so that no proof unfolds a record update. -/

namespace Sys2Proof.Machine

variable (s : State) (d : Decoder)

@[simp] theorem State.complete_params (c : ResultCode) : (s.complete c).params = s.params := rfl
@[simp] theorem State.complete_regs (c : ResultCode) : (s.complete c).regs = s.regs := rfl
@[simp] theorem State.complete_attrs (c : ResultCode) : (s.complete c).attrs = s.attrs := rfl
@[simp] theorem State.complete_packet (c : ResultCode) : (s.complete c).packet = s.packet := rfl
@[simp] theorem State.complete_pkt (c : ResultCode) : (s.complete c).pkt = s.pkt := rfl
@[simp] theorem State.complete_dec (c : ResultCode) : (s.complete c).dec = s.dec := rfl
@[simp] theorem State.complete_needsSetup (c : ResultCode) : (s.complete c).needsSetup = s.needsSetup := rfl
@[simp] theorem State.complete_fatal (c : ResultCode) : (s.complete c).fatal = s.fatal := rfl
@[simp] theorem State.complete_pktReady (c : ResultCode) : (s.complete c).pktReady = s.pktReady := rfl
@[simp] theorem State.complete_result (c : ResultCode) : (s.complete c).result = c := rfl
@[simp] theorem State.complete_pendingCmd (c : ResultCode) : (s.complete c).pendingCmd = none := rfl
@[simp] theorem State.complete_payload (c : ResultCode) : (s.complete c).payload = s.payload := rfl
@[simp] theorem State.complete_turns (c : ResultCode) : (s.complete c).turns = s.turns := rfl
@[simp] theorem State.complete_hostData (c : ResultCode) : (s.complete c).hostData = s.hostData := rfl
@[simp] theorem State.complete_draws (c : ResultCode) : (s.complete c).draws = s.draws := rfl

@[simp] theorem State.latchFatal_params (c : ResultCode) : (s.latchFatal c).params = s.params := rfl
@[simp] theorem State.latchFatal_regs (c : ResultCode) : (s.latchFatal c).regs = s.regs := rfl
@[simp] theorem State.latchFatal_attrs (c : ResultCode) : (s.latchFatal c).attrs = s.attrs := rfl
@[simp] theorem State.latchFatal_packet (c : ResultCode) : (s.latchFatal c).packet = s.packet := rfl
@[simp] theorem State.latchFatal_pkt (c : ResultCode) : (s.latchFatal c).pkt = s.pkt := rfl
@[simp] theorem State.latchFatal_dec (c : ResultCode) : (s.latchFatal c).dec = s.dec := rfl
@[simp] theorem State.latchFatal_needsSetup (c : ResultCode) : (s.latchFatal c).needsSetup = s.needsSetup := rfl
@[simp] theorem State.latchFatal_fatal (c : ResultCode) : (s.latchFatal c).fatal = if c.isFatal then some c else s.fatal := rfl
@[simp] theorem State.latchFatal_pktReady (c : ResultCode) : (s.latchFatal c).pktReady = s.pktReady := rfl
@[simp] theorem State.latchFatal_result (c : ResultCode) : (s.latchFatal c).result = s.result := rfl
@[simp] theorem State.latchFatal_pendingCmd (c : ResultCode) : (s.latchFatal c).pendingCmd = s.pendingCmd := rfl
@[simp] theorem State.latchFatal_payload (c : ResultCode) : (s.latchFatal c).payload = s.payload := rfl
@[simp] theorem State.latchFatal_turns (c : ResultCode) : (s.latchFatal c).turns = s.turns := rfl
@[simp] theorem State.latchFatal_hostData (c : ResultCode) : (s.latchFatal c).hostData = s.hostData := rfl
@[simp] theorem State.latchFatal_draws (c : ResultCode) : (s.latchFatal c).draws = s.draws := rfl

@[simp] theorem State.raise_params (c : ResultCode) : (s.raise c).params = s.params := rfl
@[simp] theorem State.raise_regs (c : ResultCode) : (s.raise c).regs = s.regs := rfl
@[simp] theorem State.raise_attrs (c : ResultCode) : (s.raise c).attrs = s.attrs := rfl
@[simp] theorem State.raise_packet (c : ResultCode) : (s.raise c).packet = s.packet := rfl
@[simp] theorem State.raise_pkt (c : ResultCode) : (s.raise c).pkt = s.pkt := rfl
@[simp] theorem State.raise_dec (c : ResultCode) : (s.raise c).dec = s.dec := rfl
@[simp] theorem State.raise_needsSetup (c : ResultCode) : (s.raise c).needsSetup = s.needsSetup := rfl
@[simp] theorem State.raise_fatal (c : ResultCode) : (s.raise c).fatal = if c.isFatal then some c else s.fatal := rfl
@[simp] theorem State.raise_pktReady (c : ResultCode) : (s.raise c).pktReady = s.pktReady := rfl
@[simp] theorem State.raise_result (c : ResultCode) : (s.raise c).result = c := rfl
@[simp] theorem State.raise_pendingCmd (c : ResultCode) : (s.raise c).pendingCmd = none := rfl
@[simp] theorem State.raise_payload (c : ResultCode) : (s.raise c).payload = s.payload := rfl
@[simp] theorem State.raise_turns (c : ResultCode) : (s.raise c).turns = s.turns := rfl
@[simp] theorem State.raise_hostData (c : ResultCode) : (s.raise c).hostData = s.hostData := rfl
@[simp] theorem State.raise_draws (c : ResultCode) : (s.raise c).draws = s.draws := rfl

@[simp] theorem State.withDec_params (d : Decoder) : (s.withDec d).params = s.params := rfl
@[simp] theorem State.withDec_regs (d : Decoder) : (s.withDec d).regs = s.regs := rfl
@[simp] theorem State.withDec_attrs (d : Decoder) : (s.withDec d).attrs = s.attrs := rfl
@[simp] theorem State.withDec_packet (d : Decoder) : (s.withDec d).packet = s.packet := rfl
@[simp] theorem State.withDec_pkt (d : Decoder) : (s.withDec d).pkt = s.pkt := rfl
@[simp] theorem State.withDec_dec (d : Decoder) : (s.withDec d).dec = d := rfl
@[simp] theorem State.withDec_needsSetup (d : Decoder) : (s.withDec d).needsSetup = s.needsSetup := rfl
@[simp] theorem State.withDec_fatal (d : Decoder) : (s.withDec d).fatal = s.fatal := rfl
@[simp] theorem State.withDec_pktReady (d : Decoder) : (s.withDec d).pktReady = s.pktReady := rfl
@[simp] theorem State.withDec_result (d : Decoder) : (s.withDec d).result = s.result := rfl
@[simp] theorem State.withDec_pendingCmd (d : Decoder) : (s.withDec d).pendingCmd = s.pendingCmd := rfl
@[simp] theorem State.withDec_payload (d : Decoder) : (s.withDec d).payload = s.payload := rfl
@[simp] theorem State.withDec_turns (d : Decoder) : (s.withDec d).turns = s.turns := rfl
@[simp] theorem State.withDec_hostData (d : Decoder) : (s.withDec d).hostData = s.hostData := rfl
@[simp] theorem State.withDec_draws (d : Decoder) : (s.withDec d).draws = s.draws := rfl

@[simp] theorem State.withPayload_params (m : List Host.Cell) : (s.withPayload m).params = s.params := rfl
@[simp] theorem State.withPayload_regs (m : List Host.Cell) : (s.withPayload m).regs = s.regs := rfl
@[simp] theorem State.withPayload_attrs (m : List Host.Cell) : (s.withPayload m).attrs = s.attrs := rfl
@[simp] theorem State.withPayload_packet (m : List Host.Cell) : (s.withPayload m).packet = s.packet := rfl
@[simp] theorem State.withPayload_pkt (m : List Host.Cell) : (s.withPayload m).pkt = s.pkt := rfl
@[simp] theorem State.withPayload_dec (m : List Host.Cell) : (s.withPayload m).dec = s.dec := rfl
@[simp] theorem State.withPayload_needsSetup (m : List Host.Cell) : (s.withPayload m).needsSetup = s.needsSetup := rfl
@[simp] theorem State.withPayload_fatal (m : List Host.Cell) : (s.withPayload m).fatal = s.fatal := rfl
@[simp] theorem State.withPayload_pktReady (m : List Host.Cell) : (s.withPayload m).pktReady = s.pktReady := rfl
@[simp] theorem State.withPayload_result (m : List Host.Cell) : (s.withPayload m).result = s.result := rfl
@[simp] theorem State.withPayload_pendingCmd (m : List Host.Cell) : (s.withPayload m).pendingCmd = s.pendingCmd := rfl
@[simp] theorem State.withPayload_payload (m : List Host.Cell) : (s.withPayload m).payload = m := rfl
@[simp] theorem State.withPayload_turns (m : List Host.Cell) : (s.withPayload m).turns = s.turns := rfl
@[simp] theorem State.withPayload_hostData (m : List Host.Cell) : (s.withPayload m).hostData = s.hostData := rfl
@[simp] theorem State.withPayload_draws (m : List Host.Cell) : (s.withPayload m).draws = s.draws := rfl

@[simp] theorem State.dropPacket_params : (s.dropPacket).params = s.params := rfl
@[simp] theorem State.dropPacket_regs : (s.dropPacket).regs = s.regs := rfl
@[simp] theorem State.dropPacket_attrs : (s.dropPacket).attrs = s.attrs := rfl
@[simp] theorem State.dropPacket_packet : (s.dropPacket).packet = s.packet := rfl
@[simp] theorem State.dropPacket_pkt : (s.dropPacket).pkt = s.pkt := rfl
@[simp] theorem State.dropPacket_dec : (s.dropPacket).dec = s.dec := rfl
@[simp] theorem State.dropPacket_needsSetup : (s.dropPacket).needsSetup = s.needsSetup := rfl
@[simp] theorem State.dropPacket_fatal : (s.dropPacket).fatal = s.fatal := rfl
@[simp] theorem State.dropPacket_pktReady : (s.dropPacket).pktReady = false := rfl
@[simp] theorem State.dropPacket_result : (s.dropPacket).result = s.result := rfl
@[simp] theorem State.dropPacket_pendingCmd : (s.dropPacket).pendingCmd = s.pendingCmd := rfl
@[simp] theorem State.dropPacket_payload : (s.dropPacket).payload = s.payload := rfl
@[simp] theorem State.dropPacket_turns : (s.dropPacket).turns = s.turns := rfl
@[simp] theorem State.dropPacket_hostData : (s.dropPacket).hostData = s.hostData := rfl
@[simp] theorem State.dropPacket_draws : (s.dropPacket).draws = s.draws := rfl

@[simp] theorem State.unconfigure_params : (s.unconfigure).params = s.params := rfl
@[simp] theorem State.unconfigure_regs : (s.unconfigure).regs = s.regs := rfl
@[simp] theorem State.unconfigure_attrs : (s.unconfigure).attrs = none := rfl
@[simp] theorem State.unconfigure_packet : (s.unconfigure).packet = s.packet := rfl
@[simp] theorem State.unconfigure_pkt : (s.unconfigure).pkt = s.pkt := rfl
@[simp] theorem State.unconfigure_dec : (s.unconfigure).dec = { s.dec with frameValid := false } := rfl
@[simp] theorem State.unconfigure_needsSetup : (s.unconfigure).needsSetup = true := rfl
@[simp] theorem State.unconfigure_fatal : (s.unconfigure).fatal = s.fatal := rfl
@[simp] theorem State.unconfigure_pktReady : (s.unconfigure).pktReady = false := rfl
@[simp] theorem State.unconfigure_result : (s.unconfigure).result = s.result := rfl
@[simp] theorem State.unconfigure_pendingCmd : (s.unconfigure).pendingCmd = s.pendingCmd := rfl
@[simp] theorem State.unconfigure_payload : (s.unconfigure).payload = s.payload := rfl
@[simp] theorem State.unconfigure_turns : (s.unconfigure).turns = s.turns := rfl
@[simp] theorem State.unconfigure_hostData : (s.unconfigure).hostData = s.hostData := rfl
@[simp] theorem State.unconfigure_draws : (s.unconfigure).draws = s.draws := rfl

@[simp] theorem State.adopt_params (a : Attrs) : (s.adopt a).params = s.params := rfl
@[simp] theorem State.adopt_regs (a : Attrs) : (s.adopt a).regs = s.regs := rfl
@[simp] theorem State.adopt_attrs (a : Attrs) : (s.adopt a).attrs = some a := rfl
@[simp] theorem State.adopt_packet (a : Attrs) : (s.adopt a).packet = s.packet := rfl
@[simp] theorem State.adopt_pkt (a : Attrs) : (s.adopt a).pkt = s.pkt := rfl
@[simp] theorem State.adopt_dec (a : Attrs) : (s.adopt a).dec = s.dec := rfl
@[simp] theorem State.adopt_needsSetup (a : Attrs) : (s.adopt a).needsSetup = s.needsSetup := rfl
@[simp] theorem State.adopt_fatal (a : Attrs) : (s.adopt a).fatal = s.fatal := rfl
@[simp] theorem State.adopt_pktReady (a : Attrs) : (s.adopt a).pktReady = s.pktReady := rfl
@[simp] theorem State.adopt_result (a : Attrs) : (s.adopt a).result = s.result := rfl
@[simp] theorem State.adopt_pendingCmd (a : Attrs) : (s.adopt a).pendingCmd = s.pendingCmd := rfl
@[simp] theorem State.adopt_payload (a : Attrs) : (s.adopt a).payload = s.payload := rfl
@[simp] theorem State.adopt_turns (a : Attrs) : (s.adopt a).turns = s.turns := rfl
@[simp] theorem State.adopt_hostData (a : Attrs) : (s.adopt a).hostData = s.hostData := rfl
@[simp] theorem State.adopt_draws (a : Attrs) : (s.adopt a).draws = s.draws := rfl

@[simp] theorem State.latchPacket_params : (s.latchPacket).params = s.params := rfl
@[simp] theorem State.latchPacket_regs : (s.latchPacket).regs = s.regs := rfl
@[simp] theorem State.latchPacket_attrs : (s.latchPacket).attrs = s.attrs := rfl
@[simp] theorem State.latchPacket_packet : (s.latchPacket).packet = s.packet := rfl
@[simp] theorem State.latchPacket_pkt : (s.latchPacket).pkt = s.packet := rfl
@[simp] theorem State.latchPacket_dec : (s.latchPacket).dec = s.dec := rfl
@[simp] theorem State.latchPacket_needsSetup : (s.latchPacket).needsSetup = s.needsSetup := rfl
@[simp] theorem State.latchPacket_fatal : (s.latchPacket).fatal = s.fatal := rfl
@[simp] theorem State.latchPacket_pktReady : (s.latchPacket).pktReady = s.pktReady := rfl
@[simp] theorem State.latchPacket_result : (s.latchPacket).result = s.result := rfl
@[simp] theorem State.latchPacket_pendingCmd : (s.latchPacket).pendingCmd = s.pendingCmd := rfl
@[simp] theorem State.latchPacket_payload : (s.latchPacket).payload = s.payload := rfl
@[simp] theorem State.latchPacket_turns : (s.latchPacket).turns = s.turns := rfl
@[simp] theorem State.latchPacket_hostData : (s.latchPacket).hostData = s.hostData := rfl
@[simp] theorem State.latchPacket_draws : (s.latchPacket).draws = s.draws := rfl

@[simp] theorem State.startPacket_params : (s.startPacket).params = s.params := rfl
@[simp] theorem State.startPacket_regs : (s.startPacket).regs = s.regs := rfl
@[simp] theorem State.startPacket_attrs : (s.startPacket).attrs = s.attrs := rfl
@[simp] theorem State.startPacket_packet : (s.startPacket).packet = s.packet := rfl
@[simp] theorem State.startPacket_pkt : (s.startPacket).pkt = s.pkt := rfl
@[simp] theorem State.startPacket_dec : (s.startPacket).dec = { s.dec with bitPosition := 0 } := rfl
@[simp] theorem State.startPacket_needsSetup : (s.startPacket).needsSetup = s.needsSetup := rfl
@[simp] theorem State.startPacket_fatal : (s.startPacket).fatal = s.fatal := rfl
@[simp] theorem State.startPacket_pktReady : (s.startPacket).pktReady = true := rfl
@[simp] theorem State.startPacket_result : (s.startPacket).result = s.result := rfl
@[simp] theorem State.startPacket_pendingCmd : (s.startPacket).pendingCmd = s.pendingCmd := rfl
@[simp] theorem State.startPacket_payload : (s.startPacket).payload = s.payload := rfl
@[simp] theorem State.startPacket_turns : (s.startPacket).turns = s.turns := rfl
@[simp] theorem State.startPacket_hostData : (s.startPacket).hostData = s.hostData := rfl
@[simp] theorem State.startPacket_draws : (s.startPacket).draws = s.draws := rfl

@[simp] theorem State.applySetup_params : (s.applySetup).params = s.params := rfl
@[simp] theorem State.applySetup_regs : (s.applySetup).regs = s.regs := rfl
@[simp] theorem State.applySetup_attrs : (s.applySetup).attrs = s.attrs := rfl
@[simp] theorem State.applySetup_packet : (s.applySetup).packet = s.packet := rfl
@[simp] theorem State.applySetup_pkt : (s.applySetup).pkt = s.pkt := rfl
@[simp] theorem State.applySetup_dec : (s.applySetup).dec = Decoder.setupValue := rfl
@[simp] theorem State.applySetup_needsSetup : (s.applySetup).needsSetup = false := rfl
@[simp] theorem State.applySetup_fatal : (s.applySetup).fatal = none := rfl
@[simp] theorem State.applySetup_pktReady : (s.applySetup).pktReady = false := rfl
@[simp] theorem State.applySetup_result : (s.applySetup).result = s.result := rfl
@[simp] theorem State.applySetup_pendingCmd : (s.applySetup).pendingCmd = s.pendingCmd := rfl
@[simp] theorem State.applySetup_payload : (s.applySetup).payload = s.payload := rfl
@[simp] theorem State.applySetup_turns : (s.applySetup).turns = s.turns := rfl
@[simp] theorem State.applySetup_hostData : (s.applySetup).hostData = s.hostData := rfl
@[simp] theorem State.applySetup_draws : (s.applySetup).draws = s.draws := rfl

@[simp] theorem placeCommand_params (c : Word) : (placeCommand s c).params = s.params := rfl
@[simp] theorem placeCommand_regs (c : Word) : (placeCommand s c).regs = s.regs := rfl
@[simp] theorem placeCommand_attrs (c : Word) : (placeCommand s c).attrs = s.attrs := rfl
@[simp] theorem placeCommand_packet (c : Word) : (placeCommand s c).packet = s.packet := rfl
@[simp] theorem placeCommand_pkt (c : Word) : (placeCommand s c).pkt = s.pkt := rfl
@[simp] theorem placeCommand_dec (c : Word) : (placeCommand s c).dec = s.dec := rfl
@[simp] theorem placeCommand_needsSetup (c : Word) : (placeCommand s c).needsSetup = s.needsSetup := rfl
@[simp] theorem placeCommand_fatal (c : Word) : (placeCommand s c).fatal = s.fatal := rfl
@[simp] theorem placeCommand_pktReady (c : Word) : (placeCommand s c).pktReady = s.pktReady := rfl
@[simp] theorem placeCommand_result (c : Word) : (placeCommand s c).result = s.result := rfl
@[simp] theorem placeCommand_pendingCmd (c : Word) : (placeCommand s c).pendingCmd = some c := rfl
@[simp] theorem placeCommand_payload (c : Word) : (placeCommand s c).payload = s.payload := rfl
@[simp] theorem placeCommand_turns (c : Word) : (placeCommand s c).turns = .block :: s.turns := rfl
@[simp] theorem placeCommand_hostData (c : Word) : (placeCommand s c).hostData = s.hostData := rfl
@[simp] theorem placeCommand_draws (c : Word) : (placeCommand s c).draws = s.draws := rfl

@[simp] theorem hostReceive_params (v : Word) : (hostReceive s v).params = s.params := rfl
@[simp] theorem hostReceive_regs (v : Word) : (hostReceive s v).regs = s.regs := rfl
@[simp] theorem hostReceive_attrs (v : Word) : (hostReceive s v).attrs = s.attrs := rfl
@[simp] theorem hostReceive_packet (v : Word) : (hostReceive s v).packet = s.packet := rfl
@[simp] theorem hostReceive_pkt (v : Word) : (hostReceive s v).pkt = s.pkt := rfl
@[simp] theorem hostReceive_dec (v : Word) : (hostReceive s v).dec = s.dec := rfl
@[simp] theorem hostReceive_needsSetup (v : Word) : (hostReceive s v).needsSetup = s.needsSetup := rfl
@[simp] theorem hostReceive_fatal (v : Word) : (hostReceive s v).fatal = s.fatal := rfl
@[simp] theorem hostReceive_pktReady (v : Word) : (hostReceive s v).pktReady = s.pktReady := rfl
@[simp] theorem hostReceive_result (v : Word) : (hostReceive s v).result = s.result := rfl
@[simp] theorem hostReceive_pendingCmd (v : Word) : (hostReceive s v).pendingCmd = s.pendingCmd := rfl
@[simp] theorem hostReceive_payload (v : Word) : (hostReceive s v).payload = s.payload := rfl
@[simp] theorem hostReceive_turns (v : Word) : (hostReceive s v).turns = s.turns := rfl
@[simp] theorem hostReceive_hostData (v : Word) : (hostReceive s v).hostData = v := rfl
@[simp] theorem hostReceive_draws (v : Word) : (hostReceive s v).draws = s.draws := rfl

@[simp] theorem busyReceive_params (n : Nat) : (busyReceive s n).params = s.params := rfl
@[simp] theorem busyReceive_regs (n : Nat) : (busyReceive s n).regs = s.regs := rfl
@[simp] theorem busyReceive_attrs (n : Nat) : (busyReceive s n).attrs = s.attrs := rfl
@[simp] theorem busyReceive_packet (n : Nat) : (busyReceive s n).packet = s.packet := rfl
@[simp] theorem busyReceive_pkt (n : Nat) : (busyReceive s n).pkt = s.pkt := rfl
@[simp] theorem busyReceive_dec (n : Nat) : (busyReceive s n).dec = s.dec := rfl
@[simp] theorem busyReceive_needsSetup (n : Nat) : (busyReceive s n).needsSetup = s.needsSetup := rfl
@[simp] theorem busyReceive_fatal (n : Nat) : (busyReceive s n).fatal = s.fatal := rfl
@[simp] theorem busyReceive_pktReady (n : Nat) : (busyReceive s n).pktReady = s.pktReady := rfl
@[simp] theorem busyReceive_result (n : Nat) : (busyReceive s n).result = s.result := rfl
@[simp] theorem busyReceive_pendingCmd (n : Nat) : (busyReceive s n).pendingCmd = s.pendingCmd := rfl
@[simp] theorem busyReceive_payload (n : Nat) : (busyReceive s n).payload = s.payload := rfl
@[simp] theorem busyReceive_turns (n : Nat) : (busyReceive s n).turns = s.turns := rfl
@[simp] theorem busyReceive_hostData (n : Nat) : (busyReceive s n).hostData = Config.busyRead s.draws &&& ones (8 * n) := rfl
@[simp] theorem busyReceive_draws (n : Nat) : (busyReceive s n).draws = s.draws + 1 := rfl

@[simp] theorem shiftIn_testWord (b : Bool) : (shiftIn b d).testWord = d.testWord.shiftConcat b := rfl
@[simp] theorem shiftIn_bitsLoaded (b : Bool) : (shiftIn b d).bitsLoaded = d.bitsLoaded := rfl
@[simp] theorem shiftIn_bitPosition (b : Bool) : (shiftIn b d).bitPosition = d.bitPosition := rfl
@[simp] theorem shiftIn_mfBitCount (b : Bool) : (shiftIn b d).mfBitCount = d.mfBitCount := rfl
@[simp] theorem shiftIn_mfWordCount (b : Bool) : (shiftIn b d).mfWordCount = d.mfWordCount := rfl
@[simp] theorem shiftIn_dwBitCount (b : Bool) : (shiftIn b d).dwBitCount = d.dwBitCount := rfl
@[simp] theorem shiftIn_syncCount (b : Bool) : (shiftIn b d).syncCount = d.syncCount := rfl
@[simp] theorem shiftIn_syncErrors (b : Bool) : (shiftIn b d).syncErrors = d.syncErrors := rfl
@[simp] theorem shiftIn_saveMode (b : Bool) : (shiftIn b d).saveMode = d.saveMode := rfl
@[simp] theorem shiftIn_frameTime (b : Bool) : (shiftIn b d).frameTime = d.frameTime := rfl
@[simp] theorem shiftIn_outWord (b : Bool) : (shiftIn b d).outWord = d.outWord := rfl
@[simp] theorem shiftIn_outErr (b : Bool) : (shiftIn b d).outErr = d.outErr := rfl
@[simp] theorem shiftIn_frameValid (b : Bool) : (shiftIn b d).frameValid = d.frameValid := rfl

@[simp] theorem countBit_testWord : (countBit d).testWord = d.testWord := rfl
@[simp] theorem countBit_bitsLoaded : (countBit d).bitsLoaded = d.bitsLoaded + 1 := rfl
@[simp] theorem countBit_bitPosition : (countBit d).bitPosition = satInc d.bitPosition := rfl
@[simp] theorem countBit_mfBitCount : (countBit d).mfBitCount = satInc d.mfBitCount := rfl
@[simp] theorem countBit_mfWordCount : (countBit d).mfWordCount = d.mfWordCount := rfl
@[simp] theorem countBit_dwBitCount : (countBit d).dwBitCount = d.dwBitCount := rfl
@[simp] theorem countBit_syncCount : (countBit d).syncCount = d.syncCount := rfl
@[simp] theorem countBit_syncErrors : (countBit d).syncErrors = d.syncErrors := rfl
@[simp] theorem countBit_saveMode : (countBit d).saveMode = d.saveMode := rfl
@[simp] theorem countBit_frameTime : (countBit d).frameTime = d.frameTime := rfl
@[simp] theorem countBit_outWord : (countBit d).outWord = d.outWord := rfl
@[simp] theorem countBit_outErr : (countBit d).outErr = d.outErr := rfl
@[simp] theorem countBit_frameValid : (countBit d).frameValid = d.frameValid := rfl

@[simp] theorem capLoaded_testWord : (capLoaded d).testWord = d.testWord := rfl
@[simp] theorem capLoaded_bitsLoaded : (capLoaded d).bitsLoaded = if capLimit < d.bitsLoaded.toNat then capValue else d.bitsLoaded := rfl
@[simp] theorem capLoaded_bitPosition : (capLoaded d).bitPosition = d.bitPosition := rfl
@[simp] theorem capLoaded_mfBitCount : (capLoaded d).mfBitCount = d.mfBitCount := rfl
@[simp] theorem capLoaded_mfWordCount : (capLoaded d).mfWordCount = d.mfWordCount := rfl
@[simp] theorem capLoaded_dwBitCount : (capLoaded d).dwBitCount = d.dwBitCount := rfl
@[simp] theorem capLoaded_syncCount : (capLoaded d).syncCount = d.syncCount := rfl
@[simp] theorem capLoaded_syncErrors : (capLoaded d).syncErrors = d.syncErrors := rfl
@[simp] theorem capLoaded_saveMode : (capLoaded d).saveMode = d.saveMode := rfl
@[simp] theorem capLoaded_frameTime : (capLoaded d).frameTime = d.frameTime := rfl
@[simp] theorem capLoaded_outWord : (capLoaded d).outWord = d.outWord := rfl
@[simp] theorem capLoaded_outErr : (capLoaded d).outErr = d.outErr := rfl
@[simp] theorem capLoaded_frameValid : (capLoaded d).frameValid = d.frameValid := rfl

@[simp] theorem loadBit_testWord (b : Bool) : (loadBit b d).testWord = d.testWord.shiftConcat b := rfl
@[simp] theorem loadBit_bitsLoaded (b : Bool) : (loadBit b d).bitsLoaded = if capLimit < (d.bitsLoaded + 1).toNat then capValue else d.bitsLoaded + 1 := rfl
@[simp] theorem loadBit_bitPosition (b : Bool) : (loadBit b d).bitPosition = satInc d.bitPosition := rfl
@[simp] theorem loadBit_mfBitCount (b : Bool) : (loadBit b d).mfBitCount = satInc d.mfBitCount := rfl
@[simp] theorem loadBit_mfWordCount (b : Bool) : (loadBit b d).mfWordCount = d.mfWordCount := rfl
@[simp] theorem loadBit_dwBitCount (b : Bool) : (loadBit b d).dwBitCount = d.dwBitCount := rfl
@[simp] theorem loadBit_syncCount (b : Bool) : (loadBit b d).syncCount = d.syncCount := rfl
@[simp] theorem loadBit_syncErrors (b : Bool) : (loadBit b d).syncErrors = d.syncErrors := rfl
@[simp] theorem loadBit_saveMode (b : Bool) : (loadBit b d).saveMode = d.saveMode := rfl
@[simp] theorem loadBit_frameTime (b : Bool) : (loadBit b d).frameTime = d.frameTime := rfl
@[simp] theorem loadBit_outWord (b : Bool) : (loadBit b d).outWord = d.outWord := rfl
@[simp] theorem loadBit_outErr (b : Bool) : (loadBit b d).outErr = d.outErr := rfl
@[simp] theorem loadBit_frameValid (b : Bool) : (loadBit b d).frameValid = d.frameValid := rfl

@[simp] theorem release_testWord (a : Attrs) (base : Word) : (release a base d).testWord = d.testWord := rfl
@[simp] theorem release_bitsLoaded (a : Attrs) (base : Word) : (release a base d).bitsLoaded = d.bitsLoaded := rfl
@[simp] theorem release_bitPosition (a : Attrs) (base : Word) : (release a base d).bitPosition = d.bitPosition := rfl
@[simp] theorem release_mfBitCount (a : Attrs) (base : Word) : (release a base d).mfBitCount = d.mfBitCount := rfl
@[simp] theorem release_mfWordCount (a : Attrs) (base : Word) : (release a base d).mfWordCount = d.mfWordCount := rfl
@[simp] theorem release_dwBitCount (a : Attrs) (base : Word) : (release a base d).dwBitCount = d.dwBitCount := rfl
@[simp] theorem release_syncCount (a : Attrs) (base : Word) : (release a base d).syncCount = d.syncCount := rfl
@[simp] theorem release_syncErrors (a : Attrs) (base : Word) : (release a base d).syncErrors = d.syncErrors := rfl
@[simp] theorem release_saveMode (a : Attrs) (base : Word) : (release a base d).saveMode = d.saveMode := rfl
@[simp] theorem release_frameTime (a : Attrs) (base : Word) : (release a base d).frameTime = timestamp a base d.bitPosition := rfl
@[simp] theorem release_outWord (a : Attrs) (base : Word) : (release a base d).outWord = d.outWord := rfl
@[simp] theorem release_outErr (a : Attrs) (base : Word) : (release a base d).outErr = d.outErr := rfl
@[simp] theorem release_frameValid (a : Attrs) (base : Word) : (release a base d).frameValid = true := rfl

@[simp] theorem confirmSync_testWord : (confirmSync d).testWord = d.testWord := rfl
@[simp] theorem confirmSync_bitsLoaded : (confirmSync d).bitsLoaded = d.bitsLoaded := rfl
@[simp] theorem confirmSync_bitPosition : (confirmSync d).bitPosition = d.bitPosition := rfl
@[simp] theorem confirmSync_mfBitCount : (confirmSync d).mfBitCount = d.mfBitCount := rfl
@[simp] theorem confirmSync_mfWordCount : (confirmSync d).mfWordCount = d.mfWordCount := rfl
@[simp] theorem confirmSync_dwBitCount : (confirmSync d).dwBitCount = d.dwBitCount := rfl
@[simp] theorem confirmSync_syncCount : (confirmSync d).syncCount = satIncSigned d.syncCount := rfl
@[simp] theorem confirmSync_syncErrors : (confirmSync d).syncErrors = d.syncErrors := rfl
@[simp] theorem confirmSync_saveMode : (confirmSync d).saveMode = d.saveMode := rfl
@[simp] theorem confirmSync_frameTime : (confirmSync d).frameTime = d.frameTime := rfl
@[simp] theorem confirmSync_outWord : (confirmSync d).outWord = d.outWord := rfl
@[simp] theorem confirmSync_outErr : (confirmSync d).outErr = d.outErr := rfl
@[simp] theorem confirmSync_frameValid : (confirmSync d).frameValid = d.frameValid := rfl

@[simp] theorem wrongOffset_testWord : (wrongOffset d).testWord = d.testWord := rfl
@[simp] theorem wrongOffset_bitsLoaded : (wrongOffset d).bitsLoaded = d.bitsLoaded := rfl
@[simp] theorem wrongOffset_bitPosition : (wrongOffset d).bitPosition = d.bitPosition := rfl
@[simp] theorem wrongOffset_mfBitCount : (wrongOffset d).mfBitCount = d.mfBitCount := rfl
@[simp] theorem wrongOffset_mfWordCount : (wrongOffset d).mfWordCount = d.mfWordCount := rfl
@[simp] theorem wrongOffset_dwBitCount : (wrongOffset d).dwBitCount = d.dwBitCount := rfl
@[simp] theorem wrongOffset_syncCount : (wrongOffset d).syncCount = 0 := rfl
@[simp] theorem wrongOffset_syncErrors : (wrongOffset d).syncErrors = if d.syncCount ≠ -1 then satInc d.syncErrors else d.syncErrors := rfl
@[simp] theorem wrongOffset_saveMode : (wrongOffset d).saveMode = d.saveMode := rfl
@[simp] theorem wrongOffset_frameTime : (wrongOffset d).frameTime = d.frameTime := rfl
@[simp] theorem wrongOffset_outWord : (wrongOffset d).outWord = d.outWord := rfl
@[simp] theorem wrongOffset_outErr : (wrongOffset d).outErr = d.outErr := rfl
@[simp] theorem wrongOffset_frameValid : (wrongOffset d).frameValid = d.frameValid := rfl

@[simp] theorem syncReset_testWord : (syncReset d).testWord = d.testWord := rfl
@[simp] theorem syncReset_bitsLoaded : (syncReset d).bitsLoaded = d.bitsLoaded := rfl
@[simp] theorem syncReset_bitPosition : (syncReset d).bitPosition = d.bitPosition := rfl
@[simp] theorem syncReset_mfBitCount : (syncReset d).mfBitCount = 0 := rfl
@[simp] theorem syncReset_mfWordCount : (syncReset d).mfWordCount = 1 := rfl
@[simp] theorem syncReset_dwBitCount : (syncReset d).dwBitCount = 0 := rfl
@[simp] theorem syncReset_syncCount : (syncReset d).syncCount = d.syncCount := rfl
@[simp] theorem syncReset_syncErrors : (syncReset d).syncErrors = d.syncErrors := rfl
@[simp] theorem syncReset_saveMode : (syncReset d).saveMode = .collecting := rfl
@[simp] theorem syncReset_frameTime : (syncReset d).frameTime = d.frameTime := rfl
@[simp] theorem syncReset_outWord : (syncReset d).outWord = d.outWord := rfl
@[simp] theorem syncReset_outErr : (syncReset d).outErr = d.outErr := rfl
@[simp] theorem syncReset_frameValid : (syncReset d).frameValid = d.frameValid := rfl

@[simp] theorem wordWrite_testWord (a : Attrs) : (wordWrite a d).testWord = d.testWord := rfl
@[simp] theorem wordWrite_bitsLoaded (a : Attrs) : (wordWrite a d).bitsLoaded = d.bitsLoaded := rfl
@[simp] theorem wordWrite_bitPosition (a : Attrs) : (wordWrite a d).bitPosition = d.bitPosition := rfl
@[simp] theorem wordWrite_mfBitCount (a : Attrs) : (wordWrite a d).mfBitCount = d.mfBitCount := rfl
@[simp] theorem wordWrite_mfWordCount (a : Attrs) : (wordWrite a d).mfWordCount = d.mfWordCount + 1 := rfl
@[simp] theorem wordWrite_dwBitCount (a : Attrs) : (wordWrite a d).dwBitCount = 0 := rfl
@[simp] theorem wordWrite_syncCount (a : Attrs) : (wordWrite a d).syncCount = d.syncCount := rfl
@[simp] theorem wordWrite_syncErrors (a : Attrs) : (wordWrite a d).syncErrors = d.syncErrors := rfl
@[simp] theorem wordWrite_saveMode (a : Attrs) : (wordWrite a d).saveMode = d.saveMode := rfl
@[simp] theorem wordWrite_frameTime (a : Attrs) : (wordWrite a d).frameTime = d.frameTime := rfl
@[simp] theorem wordWrite_outWord (a : Attrs) : (wordWrite a d).outWord = OutRam.write 0 d.outWord (wordSlot d) (completedWord a d) := rfl
@[simp] theorem wordWrite_outErr (a : Attrs) : (wordWrite a d).outErr = OutRam.write false d.outErr (wordSlot d) (parityError a.parityMode (completedWord a d)) := rfl
@[simp] theorem wordWrite_frameValid (a : Attrs) : (wordWrite a d).frameValid = false := rfl

@[simp] theorem fullTest_testWord (a : Attrs) : (fullTest a d).testWord = d.testWord := rfl
@[simp] theorem fullTest_bitsLoaded (a : Attrs) : (fullTest a d).bitsLoaded = d.bitsLoaded := rfl
@[simp] theorem fullTest_bitPosition (a : Attrs) : (fullTest a d).bitPosition = d.bitPosition := rfl
@[simp] theorem fullTest_mfBitCount (a : Attrs) : (fullTest a d).mfBitCount = d.mfBitCount := rfl
@[simp] theorem fullTest_mfWordCount (a : Attrs) : (fullTest a d).mfWordCount = d.mfWordCount := rfl
@[simp] theorem fullTest_dwBitCount (a : Attrs) : (fullTest a d).dwBitCount = d.dwBitCount := rfl
@[simp] theorem fullTest_syncCount (a : Attrs) : (fullTest a d).syncCount = d.syncCount := rfl
@[simp] theorem fullTest_syncErrors (a : Attrs) : (fullTest a d).syncErrors = d.syncErrors := rfl
@[simp] theorem fullTest_saveMode (a : Attrs) : (fullTest a d).saveMode = if d.mfWordCount = a.frameWords then .full else d.saveMode := rfl
@[simp] theorem fullTest_frameTime (a : Attrs) : (fullTest a d).frameTime = d.frameTime := rfl
@[simp] theorem fullTest_outWord (a : Attrs) : (fullTest a d).outWord = d.outWord := rfl
@[simp] theorem fullTest_outErr (a : Attrs) : (fullTest a d).outErr = d.outErr := rfl
@[simp] theorem fullTest_frameValid (a : Attrs) : (fullTest a d).frameValid = d.frameValid := rfl

end Sys2Proof.Machine
end

