-- ==== Sys2Proof/Laws/Ops.lean ====
section
/-! SUPPORT. One lemma per shared operation: all it can answer. -/

namespace Sys2Proof.Machine

theorem satInc_toNat (v : Word) : (satInc v).toNat = if v.toNat = 2 ^ 64 - 1 then 2 ^ 64 - 1 else v.toNat + 1 := by
  unfold satInc
  by_cases h : v = BitVec.allOnes 64
  · subst h; decide
  · have hn : v.toNat ≠ 2 ^ 64 - 1 := fun e => h (BitVec.eq_of_toNat_eq (by simpa using e))
    rw [if_neg h, if_neg hn, BitVec.toNat_add]
    have := v.isLt
    simp; omega

theorem satIncSigned_toInt (v : Word) :
    (satIncSigned v).toInt = if v.toInt = 2 ^ 63 - 1 then 2 ^ 63 - 1 else v.toInt + 1 := by
  unfold satIncSigned
  by_cases h : v = BitVec.intMax 64
  · subst h; decide
  · have hn : v.toInt ≠ 2 ^ 63 - 1 := fun e => h (BitVec.eq_of_toInt_eq (by rw [e]; decide))
    rw [if_neg h, if_neg hn, BitVec.toInt_add]
    have h1 := BitVec.le_toInt v
    have h2 := BitVec.toInt_lt (x := v)
    have h3 : BitVec.toInt (1 : Word) = 1 := by decide
    rw [h3, Int.bmod_def]
    norm_num at h1 h2 hn ⊢
    split_ifs <;> omega

/-- `ones(n)` has exactly the bits below n (00_scope.md R8). -/
theorem getLsbD_ones (n i : Nat) (hn : n ≤ 64) : (ones n).getLsbD i = decide (i < n) := by
  unfold ones
  simp only [BitVec.getLsbD_ushiftRight, BitVec.getLsbD_allOnes]
  exact decide_eq_decide.2 (by omega)

/-- All SETUP_CORE can answer (43_commands.md R183). -/
theorem setupCore_cases (a : Attrs) (s : State) :
    (s.params.maxFrameWords < a.frameWords.toNat ∧ setupCore a s = .error .bufferTooSmall) ∨
    (a.frameWords.toNat ≤ s.params.maxFrameWords ∧ setupCore a s = .ok s.applySetup) := by
  unfold setupCore
  split_ifs with h
  · exact .inl ⟨h, rfl⟩
  · exact .inr ⟨by omega, rfl⟩

/-- All the length checks can answer (43_commands.md R190). -/
theorem lengthRefusal_cases (p : Params) (len : Nat) :
    (len < p.csdwBytes ∧ lengthRefusal p len = some .noMoreData) ∨
    (p.csdwBytes ≤ len ∧ p.maxPayloadBytes < len ∧ lengthRefusal p len = some .bufferOverrun) ∨
    (p.csdwBytes ≤ len ∧ len ≤ p.maxPayloadBytes ∧ lengthRefusal p len = none) := by
  unfold lengthRefusal
  split_ifs with h1 h2
  · exact .inl ⟨h1, rfl⟩
  · exact .inr (.inl ⟨by omega, h2, rfl⟩)
  · exact .inr (.inr ⟨by omega, by omega, rfl⟩)

theorem lengthRefusal_eq_none {p : Params} {len : Nat} :
    lengthRefusal p len = none ↔ p.csdwBytes ≤ len ∧ len ≤ p.maxPayloadBytes := by
  rcases lengthRefusal_cases p len with ⟨h, e⟩ | ⟨h1, h2, e⟩ | ⟨h1, h2, e⟩ <;> rw [e] <;> simp <;> omega

/-- The three shapes of a turn (log 2). -/
theorem nextTurn_cases (s : State) :
    (s.turns = [] ∧ nextTurn s = (none, s)) ∨
    (∃ rest, s.turns = .block :: rest ∧ nextTurn s = (none, { s with turns := rest })) ∨
    (∃ a rest, s.turns = .host a :: rest ∧ nextTurn s = (some a, { s with turns := rest })) := by
  unfold nextTurn
  rcases h : s.turns with _ | ⟨_ | _, rest⟩ <;> simp

/-- All a host access can answer (20_memory.md R62, R64, 70_reset_and_hazards.md R253). -/
theorem hostAccess_next {acc : Access} {s t : State} (h : hostAccess acc s = .next t) :
    (∃ off size, acc = .read off size ∧ s.busy = true ∧ t = busyReceive s size) ∨
    (∃ off size, acc = .read off size ∧ t = hostReceive s (windowRead s off size)) ∨
    (∃ off size v, acc = .write off size v ∧ off < windowBytes ∧ accessOk s.params off size = true ∧
      s.busy = false ∧ t = windowWrite s off size v) := by
  cases acc with
  | read off size =>
    simp only [hostAccess] at h
    split_ifs at h with h1 h2 h3
    · injection h with h
      exact .inl ⟨off, size, rfl, (Bool.and_eq_true _ _ ▸ h3 : _ ∧ _).1, h.symm⟩
    · injection h with h
      exact .inr (.inl ⟨off, size, rfl, h.symm⟩)
  | write off size v =>
    simp only [hostAccess] at h
    split_ifs at h with h1 h2 h3
    injection h with h
    exact .inr (.inr ⟨off, size, v, rfl, by omega, by simpa using h2, by simpa using h3, h.symm⟩)

end Sys2Proof.Machine
end

