-- ==== Sys2Proof/Laws/Attrs.lean ====
section
/-! SUPPORT. What CONFIGURE's validation can answer (43_commands.md R182). -/

namespace Sys2Proof.Machine

/-- A mask inside the pattern length, as its bits (43_commands.md R182). -/
theorem maskInLength_iff (m : Word) {n : Nat} (hn : n ≤ 64) :
    m &&& ~~~(ones n) = 0 ↔ ∀ i, n ≤ i → m.getLsbD i = false := by
  constructor
  · intro h i hi
    by_cases h64 : i < 64
    · have e := congrArg (·.getLsbD i) h
      simp only [BitVec.getLsbD_and, BitVec.getLsbD_not, getLsbD_ones n i hn] at e
      simpa [h64, Nat.not_lt.2 hi] using e
    · exact BitVec.getLsbD_of_ge _ _ (by omega)
  · intro h
    refine BitVec.eq_of_getLsbD_eq fun i hi => ?_
    rw [BitVec.getLsbD_and, BitVec.getLsbD_not, getLsbD_ones n i hn]
    by_cases hin : i < n
    · simp [hin]
    · simp [h i (by omega)]

/-- A pattern inside the mask, as its bits (43_commands.md R182). -/
theorem patternInMask_iff (p m : Word) : p &&& ~~~m = 0 ↔ ∀ i, m.getLsbD i = false → p.getLsbD i = false := by
  constructor
  · intro h i hi
    by_cases h64 : i < 64
    · have e := congrArg (·.getLsbD i) h
      simp only [BitVec.getLsbD_and, BitVec.getLsbD_not, hi] at e
      simpa [h64] using e
    · exact BitVec.getLsbD_of_ge _ _ (by omega)
  · intro h
    refine BitVec.eq_of_getLsbD_eq fun i hi => ?_
    rw [BitVec.getLsbD_and, BitVec.getLsbD_not]
    cases hm : m.getLsbD i
    · simp [h i hm]
    · simp

/-- `PARITY[1:0]` as a remainder (10_state.md R29). -/
theorem parityModeOf_eq (r : Word) :
    parityModeOf r =
      if r.toNat % 4 = 0 then some .none else if r.toNat % 4 = 1 then some .odd
      else if r.toNat % 4 = 2 then some .even else none := by
  have e : (r.extractLsb' 0 2).toNat = r.toNat % 4 := by simp
  have h : r.toNat % 4 < 4 := Nat.mod_lt _ (by decide)
  unfold parityModeOf
  rw [e]
  interval_cases r.toNat % 4 <;> rfl

/-- A set that the validation passes is valid (43_commands.md R182, 10_state.md R53). -/
theorem validateAttrs_valid {r : AttrRegs} {a : Attrs} (h : validateAttrs r = .ok a) : a.Valid := by
  unfold validateAttrs at h
  rcases hp : parityModeOf r.parity with _ | pm <;> simp only [hp] at h
  · split_ifs at h
  · split_ifs at h with h1 h2 h3 h4 h5 h6 h7 h8 h9
    obtain rfl := Except.ok.inj h
    push Not at h1 h2 h3 h4 h5
    refine ⟨⟨h1.1, h1.2⟩, ⟨h2.1, by simpa using h2.2⟩, ⟨h3.1, h3.2⟩, (maskInLength_iff _ h3.2).1 h4,
      (patternInMask_iff _ _).1 h5, ?_, ?_⟩
    · have hm : r.minSync.msb = false := by rw [BitVec.msb_eq_getLsbD_last]; simpa using h6
      have := BitVec.msb_eq_false_iff_two_mul_lt.1 hm
      show r.minSync.toNat < 2 ^ 63
      omega
    · show 0 < (frameBitsOf r).toNat
      unfold frameBitsOf
      split_ifs with hf
      · exact Nat.pos_of_ne_zero fun h0 => hf (BitVec.eq_of_toNat_eq (by simpa using h0))
      · have hle : r.wordLen.toNat * (r.frameWords.toNat - 1) ≤ 64 * (4294967295 - 1) :=
          Nat.mul_le_mul h1.2 (by omega)
        have := h3.1
        rw [BitVec.toNat_ofNat, Nat.mod_eq_of_lt (by have := h3.2; omega)]
        omega

end Sys2Proof.Machine
end

