-- ==== Sys2Proof/Laws/PerInstr.lean ====
section
/-! SUPPORT. Facts about every command as syntax, one lemma per constructor. -/

namespace Sys2Proof.Laws.EncodedFields

/-- The command word's three fields are the command's (30_encoding.md R80): its opcode, its operand bit, and a
reserved field of zeros. -/
def Statement (i : Instr) : Prop :=
  cmdOp (encode i) = (opcodeOf i).toNat ∧ cmdBit (encode i) = operandBit i ∧ cmdRsv (encode i) = 0

theorem nop : Statement .nop := by unfold Statement; decide
theorem configure : Statement .configure := by unfold Statement; decide
theorem setup : Statement .setup := by unfold Statement; decide
theorem decodeFirst : Statement .decodeFirst := by unfold Statement; decide
theorem decodeNext : Statement .decodeNext := by unfold Statement; decide
theorem feedBit (b : Bool) : Statement (.feedBit b) := by unfold Statement; cases b <;> decide
theorem swapBytes : Statement .swapBytes := by unfold Statement; decide
theorem swapShorts : Statement .swapShorts := by unfold Statement; decide

end Sys2Proof.Laws.EncodedFields
end

