-- ==== Sys2Proof/Laws/Swap.lean ====
section
/-! SUPPORT. What the swaps do to every byte of the payload RAM, and all they can answer. -/

namespace Sys2Proof.Machine

theorem read_swapPair (m : List Host.Cell) (p b : Nat) :
    Memory.read (swapPair m p) b =
      if b = p + 1 then Memory.read m p else if b = p then Memory.read m (p + 1) else Memory.read m b := by
  simp [swapPair]

theorem read_swapQuad (m : List Host.Cell) (p b : Nat) :
    Memory.read (swapQuad m p) b =
      if b = p + 3 then Memory.read m (p + 1) else if b = p + 2 then Memory.read m p
      else if b = p + 1 then Memory.read m (p + 3) else if b = p then Memory.read m (p + 2)
      else Memory.read m b := by
  simp [swapQuad]

/-- Every byte after SWAP16's loop (42_byte_swap.md R160). -/
theorem read_swapPairs (base k : Nat) (m : List Host.Cell) (b : Nat) :
    Memory.read (swapPairs base k m) b =
      if base ≤ b ∧ b < base + 2 * k then
        Memory.read m (if (b - base) % 2 = 0 then b + 1 else b - 1)
      else Memory.read m b := by
  induction k generalizing b with
  | zero => simp [swapPairs]
  | succ k ih =>
    simp only [swapPairs, read_swapPair, ih]
    by_cases h1 : b = base + 2 * k + 1
    · subst h1
      rw [if_pos rfl, if_neg (by omega), if_pos (by omega), if_neg (by omega)]; rfl
    · by_cases h2 : b = base + 2 * k
      · subst h2
        rw [if_neg h1, if_pos rfl, if_neg (by omega), if_pos (by omega), if_pos (by omega)]
      · rw [if_neg h1, if_neg h2]
        have hiff : (base ≤ b ∧ b < base + 2 * k) ↔ (base ≤ b ∧ b < base + 2 * (k + 1)) := by omega
        simp only [hiff]

/-- Every byte after SWAP32's loop (42_byte_swap.md R161). -/
theorem read_swapQuads (base k : Nat) (m : List Host.Cell) (b : Nat) :
    Memory.read (swapQuads base k m) b =
      if base ≤ b ∧ b < base + 4 * k then
        Memory.read m (if (b - base) % 4 < 2 then b + 2 else b - 2)
      else Memory.read m b := by
  induction k generalizing b with
  | zero => simp [swapQuads]
  | succ k ih =>
    simp only [swapQuads, read_swapQuad, ih]
    by_cases h3 : b = base + 4 * k + 3
    · subst h3
      rw [if_pos rfl, if_neg (by omega), if_pos (by omega), if_neg (by omega)]; rfl
    · rw [if_neg h3]
      by_cases h2 : b = base + 4 * k + 2
      · subst h2
        rw [if_pos rfl, if_neg (by omega), if_pos (by omega), if_neg (by omega)]; rfl
      · rw [if_neg h2]
        by_cases h1 : b = base + 4 * k + 1
        · subst h1
          rw [if_pos rfl, if_neg (by omega), if_pos (by omega), if_pos (by omega)]
        · rw [if_neg h1]
          by_cases h0 : b = base + 4 * k
          · subst h0
            rw [if_pos rfl, if_neg (by omega), if_pos (by omega), if_pos (by omega)]
          · rw [if_neg h0]
            have hiff : (base ≤ b ∧ b < base + 4 * k) ↔ (base ≤ b ∧ b < base + 4 * (k + 1)) := by omega
            simp only [hiff]

/-- What a payload operation keeps: the canonical form, and a bound on the addresses. -/
def KeepsPayload (bound : Nat) (m m' : List Host.Cell) : Prop :=
  (Memory.wf m → Memory.wf m') ∧ ((∀ c ∈ m, c.1 < bound) → ∀ c ∈ m', c.1 < bound)

theorem KeepsPayload.refl (bound : Nat) (m : List Host.Cell) : KeepsPayload bound m m := ⟨id, id⟩

theorem KeepsPayload.trans {bound : Nat} {m m' m'' : List Host.Cell} (h : KeepsPayload bound m m')
    (h' : KeepsPayload bound m' m'') : KeepsPayload bound m m'' :=
  ⟨fun w => h'.1 (h.1 w), fun w => h'.2 (h.2 w)⟩

theorem keepsPayload_write {bound a : Nat} (m : List Host.Cell) (v : Byte) (h : a < bound) :
    KeepsPayload bound m (Memory.write m a v) := by
  refine ⟨fun w => Memory.write_wf w a v, fun w c hc => ?_⟩
  rcases Memory.mem_write hc with rfl | hc
  · exact h
  · exact w c hc

theorem keepsPayload_swapPairs {bound base k : Nat} (m : List Host.Cell) (h : base + 2 * k ≤ bound) :
    KeepsPayload bound m (swapPairs base k m) := by
  induction k with
  | zero => exact .refl _ _
  | succ k ih =>
    exact (ih (by omega)).trans ((keepsPayload_write _ _ (by omega)).trans (keepsPayload_write _ _ (by omega)))

theorem keepsPayload_swapQuads {bound base k : Nat} (m : List Host.Cell) (h : base + 4 * k ≤ bound) :
    KeepsPayload bound m (swapQuads base k m) := by
  induction k with
  | zero => exact .refl _ _
  | succ k ih =>
    exact (ih (by omega)).trans
      ((keepsPayload_write _ _ (by omega)).trans ((keepsPayload_write _ _ (by omega)).trans
        ((keepsPayload_write _ _ (by omega)).trans (keepsPayload_write _ _ (by omega)))))

/-- All SWAP16 can answer. -/
theorem swap16_cases (p : Params) (len : Nat) (m : List Host.Cell) :
    (swap16 p len m = .error .invalidData ∧ (len - p.csdwBytes) % 2 ≠ 0) ∨
    (swap16 p len m = .ok (swapPairs p.csdwBytes ((len - p.csdwBytes) / 2) m) ∧ (len - p.csdwBytes) % 2 = 0) := by
  unfold swap16
  split_ifs with h
  · exact .inl ⟨rfl, h⟩
  · exact .inr ⟨rfl, not_not.1 h⟩

/-- All SWAP32 can answer. -/
theorem swap32_cases (p : Params) (len : Nat) (m : List Host.Cell) :
    (swap32 p len m = .error .invalidData ∧ (len - p.csdwBytes) % 4 ≠ 0) ∨
    (swap32 p len m = .ok (swapQuads p.csdwBytes ((len - p.csdwBytes) / 4) m) ∧ (len - p.csdwBytes) % 4 = 0) := by
  unfold swap32
  split_ifs with h
  · exact .inl ⟨rfl, h⟩
  · exact .inr ⟨rfl, not_not.1 h⟩

/-- All BYTE_SWAP_FIXUP can answer (42_byte_swap.md R164). -/
theorem byteSwapFixup_cases (p : Params) (a : Attrs) (pkt : Packet) (m : List Host.Cell) :
    (a.byteSwap = false ∧ byteSwapFixup p a pkt m = .ok m) ∨
    (a.byteSwap = true ∧ ((pkt.len.toNat - p.csdwBytes) % 2 ≠ 0 ∨
        (pkt.align32 = true ∧ (pkt.len.toNat - p.csdwBytes) % 4 ≠ 0)) ∧
      byteSwapFixup p a pkt m = .error .invalidData) ∨
    (a.byteSwap = true ∧ pkt.align32 = false ∧ (pkt.len.toNat - p.csdwBytes) % 2 = 0 ∧
      byteSwapFixup p a pkt m = .ok (swapPairs p.csdwBytes ((pkt.len.toNat - p.csdwBytes) / 2) m)) ∨
    (a.byteSwap = true ∧ pkt.align32 = true ∧ (pkt.len.toNat - p.csdwBytes) % 4 = 0 ∧
      byteSwapFixup p a pkt m =
        .ok (swapQuads p.csdwBytes ((pkt.len.toNat - p.csdwBytes) / 4)
          (swapPairs p.csdwBytes ((pkt.len.toNat - p.csdwBytes) / 2) m))) := by
  unfold byteSwapFixup
  cases hb : a.byteSwap
  · simp
  · by_cases h2 : (pkt.len.toNat - p.csdwBytes) % 2 = 0
    · cases hal : pkt.align32
      · simp [h2, swap16]
      · by_cases h4 : (pkt.len.toNat - p.csdwBytes) % 4 = 0
        · simp [h2, h4, swap16, swap32]
        · simp [h2, h4]
    · have : (pkt.len.toNat - p.csdwBytes) % 2 = 1 := by omega
      simp [this]

theorem byteSwapFixup_keeps {p : Params} {a : Attrs} {pkt : Packet} {m m' : List Host.Cell}
    (hlen : pkt.len.toNat ≤ p.maxPayloadBytes) (hcs : p.csdwBytes ≤ pkt.len.toNat)
    (h : byteSwapFixup p a pkt m = .ok m') : KeepsPayload p.maxPayloadBytes m m' := by
  rcases byteSwapFixup_cases p a pkt m with ⟨-, e⟩ | ⟨-, -, e⟩ | ⟨-, -, -, e⟩ | ⟨-, -, -, e⟩
  · obtain rfl : m = m' := Except.ok.inj (e.symm.trans h)
    exact .refl _ _
  · exact absurd (e.symm.trans h) (by simp)
  · obtain rfl := Except.ok.inj (e.symm.trans h)
    exact keepsPayload_swapPairs _ (by omega)
  · obtain rfl := Except.ok.inj (e.symm.trans h)
    exact (keepsPayload_swapPairs _ (by omega)).trans (keepsPayload_swapQuads _ (by omega))

/-- All a standalone swap can answer (43_commands.md R188 to R190). -/
theorem swapCommand_cases (swap : Params → Nat → List Host.Cell → Except ResultCode (List Host.Cell)) (s : State) :
    (∃ c, lengthRefusal s.params s.packet.len.toNat = some c ∧ swapCommand swap s = s.complete c) ∨
    (lengthRefusal s.params s.packet.len.toNat = none ∧
      ((∃ c, swap s.params s.packet.len.toNat s.payload = .error c ∧ swapCommand swap s = s.raise c) ∨
       (∃ m, swap s.params s.packet.len.toNat s.payload = .ok m ∧
         swapCommand swap s = (s.withPayload m).complete .ok))) := by
  unfold swapCommand
  rcases lengthRefusal s.params s.packet.len.toNat with _ | c
  · rcases swap s.params s.packet.len.toNat s.payload with c | m
    · exact .inr ⟨rfl, .inl ⟨c, rfl, rfl⟩⟩
    · exact .inr ⟨rfl, .inr ⟨m, rfl, rfl⟩⟩
  · exact .inl ⟨c, rfl, rfl⟩

end Sys2Proof.Machine
end

