-- ==== Sys2Proof/Laws/Sync.lean ====
section
/-! SUPPORT. All that one bit step can do, and induction over the run loop. -/

namespace Sys2Proof.Machine

/-- All ACCUMULATE can do (41_word_extractor.md R140). -/
theorem accumulate_cases (a : Attrs) (d : Decoder) :
    (d.dwBitCount + 1 ≠ a.wordLen ∧ accumulate a d = { d with dwBitCount := d.dwBitCount + 1 }) ∨
    (d.dwBitCount + 1 = a.wordLen ∧
      accumulate a d = fullTest a (wordWrite a { d with dwBitCount := d.dwBitCount + 1 })) := by
  unfold accumulate
  split_ifs with h
  · exact .inr ⟨h, rfl⟩
  · exact .inl ⟨h, rfl⟩

/-- All STEP can do (40_bit_sync.md R101), with `loadBit b d` for the state after SHIFT, COUNT and CAP. -/
theorem stepBit_cases (a : Attrs) (base : Word) (b : Bool) (d : Decoder) :
    (syncTest a (loadBit b d) = true ∧ satInc d.mfBitCount = a.frameBits ∧
      releases a (confirmSync (loadBit b d)) = true ∧
      stepBit a base b d = (syncReset (release a base (confirmSync (loadBit b d))), true)) ∨
    (syncTest a (loadBit b d) = true ∧ satInc d.mfBitCount = a.frameBits ∧
      releases a (confirmSync (loadBit b d)) = false ∧
      stepBit a base b d = (syncReset (confirmSync (loadBit b d)), false)) ∨
    (syncTest a (loadBit b d) = true ∧ satInc d.mfBitCount ≠ a.frameBits ∧
      stepBit a base b d = (syncReset (wrongOffset (loadBit b d)), false)) ∨
    (syncTest a (loadBit b d) = false ∧ d.saveMode = .collecting ∧ d.dwBitCount + 1 ≠ a.wordLen ∧
      stepBit a base b d = ({ loadBit b d with dwBitCount := d.dwBitCount + 1 }, false)) ∨
    (syncTest a (loadBit b d) = false ∧ d.saveMode = .collecting ∧ d.dwBitCount + 1 = a.wordLen ∧
      stepBit a base b d =
        (fullTest a (wordWrite a { loadBit b d with dwBitCount := d.dwBitCount + 1 }), false)) ∨
    (syncTest a (loadBit b d) = false ∧ d.saveMode ≠ .collecting ∧ stepBit a base b d = (loadBit b d, false)) := by
  unfold stepBit
  cases hs : syncTest a (loadBit b d)
  · rw [if_neg (by simp)]
    unfold onData
    by_cases hc : d.saveMode = .collecting
    · rw [if_pos (by simpa using hc)]
      rcases accumulate_cases a (loadBit b d) with ⟨h, e⟩ | ⟨h, e⟩ <;> rw [e]
      · exact .inr (.inr (.inr (.inl ⟨rfl, hc, by simpa using h, by simp⟩)))
      · exact .inr (.inr (.inr (.inr (.inl ⟨rfl, hc, by simpa using h, by simp⟩))))
    · rw [if_neg (by simpa using hc)]
      exact .inr (.inr (.inr (.inr (.inr ⟨rfl, hc, rfl⟩))))
  · rw [if_pos rfl]
    unfold onSync
    by_cases hm : satInc d.mfBitCount = a.frameBits
    · rw [if_pos (by simpa using hm)]
      unfold correctOffset
      cases hr : releases a (confirmSync (loadBit b d))
      · exact .inr (.inl ⟨rfl, hm, rfl, by simp⟩)
      · exact .inl ⟨rfl, hm, rfl, by simp⟩
    · rw [if_neg (by simpa using hm)]
      exact .inr (.inr (.inl ⟨rfl, hm, rfl⟩))

section
variable (a : Attrs) (base : Word) (b : Bool) (d : Decoder)

/-- Every step loads its bit and nothing else moves these three registers (40_bit_sync.md R102 to R104). -/
theorem stepBit_loads :
    (stepBit a base b d).1.testWord = d.testWord.shiftConcat b ∧
    (stepBit a base b d).1.bitPosition = satInc d.bitPosition ∧
    (stepBit a base b d).1.bitsLoaded =
      if capLimit < (d.bitsLoaded + 1).toNat then capValue else d.bitsLoaded + 1 := by
  rcases stepBit_cases a base b d with ⟨-, -, -, e⟩ | ⟨-, -, -, e⟩ | ⟨-, -, e⟩ | ⟨-, -, -, e⟩ | ⟨-, -, -, e⟩ | ⟨-, -, e⟩ <;>
    rw [e] <;> exact ⟨rfl, rfl, rfl⟩

@[simp] theorem stepBit_testWord : (stepBit a base b d).1.testWord = d.testWord.shiftConcat b :=
  (stepBit_loads a base b d).1

@[simp] theorem stepBit_bitPosition : (stepBit a base b d).1.bitPosition = satInc d.bitPosition :=
  (stepBit_loads a base b d).2.1

end

/-- What every bit step keeps, the run loop keeps. -/
theorem runLoop_induct {P : Decoder → Prop} {a : Attrs} {base : Word}
    (hstep : ∀ b d, P d → P (stepBit a base b d).1) (p : Params) (m : List Host.Cell) (nbits fuel : Nat) :
    ∀ d, P d → P (runLoop p a base m nbits fuel d).1 := by
  induction fuel with
  | zero => intro d h; exact h
  | succ n ih =>
    intro d h
    unfold runLoop
    split_ifs with hlt
    · have hs := hstep (bitAt p m d.bitPosition.toNat) d h
      rcases hr : stepBit a base (bitAt p m d.bitPosition.toNat) d with ⟨d', _ | _⟩ <;> rw [hr] at hs
      · exact ih d' hs
      · exact hs
    · exact h

/-- What every bit step keeps, RUN keeps (40_bit_sync.md R112). -/
theorem run_induct {P : Decoder → Prop} {a : Attrs} {pkt : Packet}
    (hstep : ∀ b d, P d → P (stepBit a pkt.baseTime b d).1) (p : Params) (m : List Host.Cell) {d : Decoder}
    (h : P d) : P (run p a pkt m d).1 :=
  runLoop_induct hstep p m _ _ d h

/-- A stream fed in two pieces. -/
theorem feedAll_append (a : Attrs) (base : Word) (xs ys : List Bool) (d : Decoder) :
    feedAll a base (xs ++ ys) d = feedAll a base ys (feedAll a base xs d) := by
  induction xs generalizing d with
  | nil => rfl
  | cons x xs ih => exact ih _

/-- The sync fires of a stream fed in two pieces. -/
theorem anyFire_append (a : Attrs) (base : Word) (xs ys : List Bool) (d : Decoder) :
    anyFire a base (xs ++ ys) d = (anyFire a base xs d || anyFire a base ys (feedAll a base xs d)) := by
  induction xs generalizing d with
  | nil => simp [anyFire, feedAll]
  | cons x xs ih => simp [anyFire, feedAll, ih, Bool.or_assoc]

/-- What every bit step keeps, a stream keeps. -/
theorem feedAll_induct {P : Decoder → Prop} {a : Attrs} {base : Word}
    (hstep : ∀ b d, P d → P (stepBit a base b d).1) (bs : List Bool) : ∀ {d : Decoder}, P d → P (feedAll a base bs d) := by
  induction bs with
  | nil => exact id
  | cons b bs ih => exact fun h => ih (hstep b _ h)

end Sys2Proof.Machine
end

