-- ==== Sys2Proof/Tests/Slice0.lean ====
section
/-! SUPPORT. Tests of single operations, with the values of spec/95_test_vectors.md and of the rules' examples,
and for every statement with hypotheses a state that meets them (the theorems named witness_...). -/

open Sys2Proof Sys2Proof.Machine

namespace Sys2Proof.Tests

/-! ### The small states the tests start from -/

/-- The register values of CFG0 (95_test_vectors.md section 0). -/
def cfg0Regs : AttrRegs :=
  { wordLen := 12, frameWords := 4, frameBits := 0, syncPattern := 0xFE6, syncMask := 0xFFF, syncLen := 12,
    minSync := 0, parity := 0, byteOrder := 0, timePerBit := 0xA00000000 }

/-- The attribute set of CFG0: `A.frame_bits = 48` (95_test_vectors.md section 0). -/
def cfg0 : Attrs :=
  { wordLen := 12, frameWords := 4, frameBits := 48, syncPattern := 0xFE6, syncMask := 0xFFF, syncLen := 12,
    minSync := 0, parityMode := .none, parityPos := .leading, byteSwap := false, timePerBit := 0xA00000000 }

/-- A packet of `len` bytes in throughput mode, `BASE_TIME = 1000`. -/
def pkt0 (len : Word) : Packet := { len := len, mode := 1, baseTime := 1000 }

/-- Power-on, with `A` validated and setup not yet done. -/
def configured (a : Attrs) : State := { State.reset with attrs := some a }

/-- Setup done with `A` and decoder state `d`. -/
def ready (a : Attrs) (d : Decoder) : State := { State.reset with attrs := some a, needsSetup := false, dec := d }

/-- A payload of zero descriptor bytes followed by the listed bytes. -/
def payloadOf (bytes : List Byte) : List Host.Cell := (List.range (4 + bytes.length)).zip ([0, 0, 0, 0] ++ bytes)

/-- Eleven bits of the pattern of CFG0 are loaded: feeding a 0 fires the sync test. -/
def atSync : Decoder := { Decoder.setupValue with testWord := 0x7F3, bitsLoaded := 11 }

/-- A full frame one bit before its bracketing sync, the syncs so far being `n`. -/
def atBracket (n : Word) : Decoder :=
  { atSync with mfBitCount := 47, bitPosition := 59, mfWordCount := 4, saveMode := .full, syncCount := n }

/-- Collecting the first word of a frame of CFG0, `n` bits of it fed. -/
def collecting (n : Word) : Decoder :=
  { Decoder.setupValue with
    testWord := 0xFE6091, bitsLoaded := 23, mfBitCount := n, mfWordCount := 1, dwBitCount := n, syncCount := 0
    saveMode := .collecting, frameValid := true }

/-- A one-bit pattern, one-bit words, two words a frame (95_test_vectors.md has no smaller set). -/
def tiny (frameBits : Word) : Attrs :=
  { cfg0 with wordLen := 1, frameWords := 2, frameBits := frameBits, syncPattern := 1, syncMask := 1, syncLen := 1 }

/-- The next state, where there is one. -/
def next? (o : Host.Outcome State Fault Refusal) : Option State :=
  match o with
  | .next s => some s
  | .fault _ => none
  | .refused _ => none

/-- A field of the next state. -/
def after {α : Type} (o : Host.Outcome State Fault Refusal) (f : State → α) : Option α := (next? o).map f

/-! ### Well-formedness, decoding, the fetch -/

/-- 00_scope.md R6: each range is checked. No command is ill-formed (30_encoding.md R81). -/
theorem test_params_wf :
    Params.standard.wf = true ∧ { Params.standard with maxFrameWords := 1, maxPayloadBytes := 4 }.wf = true ∧
    { Params.standard with maxFrameWords := 0 }.wf = false ∧
    { Params.standard with maxFrameWords := 8193 }.wf = false ∧
    { Params.standard with maxPayloadBytes := 3 }.wf = false ∧
    { Params.standard with maxPayloadBytes := 1048577 }.wf = false := by decide

/-- The words of 30_encoding.md R82, one for each command. -/
theorem test_decode_words :
    decodeTableWord 64 0x0 = some .nop ∧ decodeTableWord 64 0x1 = some .configure ∧
    decodeTableWord 64 0x2 = some .setup ∧ decodeTableWord 64 0x3 = some .decodeFirst ∧
    decodeTableWord 64 0x4 = some .decodeNext ∧ decodeTableWord 64 0x5 = some (.feedBit false) ∧
    decodeTableWord 64 0x105 = some (.feedBit true) ∧ decodeTableWord 64 0x6 = some .swapBytes ∧
    decodeTableWord 64 0x7 = some .swapShorts := by decide

/-- The illegal words of 30_encoding.md R83 and R88. -/
theorem test_decode_illegal :
    decodeTableWord 64 0x106 = none ∧ decodeTableWord 64 0x8 = none ∧ decodeTableWord 64 0xFF = none ∧
    decodeTableWord 64 0x200 = none ∧ decodeTableWord 64 0x8000000000000005 = none ∧
    decodeTableWord 64 0x100 = none := by decide

/-- The encodings of 30_encoding.md R82. -/
theorem test_encode_words :
    encode (.feedBit true) = 0x105 ∧ encode (.feedBit false) = 0x5 ∧ encode .swapShorts = 0x7 ∧
    encode .decodeNext = 0x4 := by decide

/-- A placed word runs in the very next step, as the first command after power-on (43_commands.md R184's example). -/
theorem test_fetch_setup :
    after (step (State.reset.withFetchWord 64 0x2)) (·.result) = some .invalidParameter := by decide

/-- An illegal word (30_encoding.md R83). -/
theorem test_fetch_illegal :
    after (step (State.reset.withFetchWord 64 0x106)) (fun s => (s.result, s.fatal)) =
      some (.illegalCommand, none) := by decide

/-! ### NOP, CONFIGURE, SETUP -/

/-- 43_commands.md R181's example: `RESULT` was `NO_MORE_DATA`. -/
theorem test_nop : after (exec .nop { State.reset with result := .noMoreData }) (·.statusWord) = some 0x4 := by decide

/-- 43_commands.md R182's example and 95_test_vectors.md 5.1's last row. -/
theorem test_configure :
    after (exec .configure { State.reset with regs := cfg0Regs })
      (fun s => (readReg s .activeFrameBits, readReg s .frameNwords, readReg s .status)) = some (48, 3, 0x6) := by
  decide

/-- 95_test_vectors.md 5.1, one row for each check. -/
theorem test_configure_checks :
    validateAttrs { cfg0Regs with wordLen := 65 } = .error .invalidParameter ∧
    validateAttrs { cfg0Regs with frameWords := 0x100000000 } = .error .invalidParameter ∧
    validateAttrs { cfg0Regs with syncLen := 0 } = .error .invalidParameter ∧
    validateAttrs { cfg0Regs with syncMask := 0x1FFF } = .error .invalidParameter ∧
    validateAttrs { cfg0Regs with syncMask := 0xFF0 } = .error .invalidParameter ∧
    validateAttrs { cfg0Regs with minSync := 0x8000000000000000 } = .error .invalidParameter ∧
    validateAttrs { cfg0Regs with parity := 3 } = .error .invalidParameter ∧
    validateAttrs { cfg0Regs with parity := 8 } = .error .invalidParameter ∧
    validateAttrs { cfg0Regs with byteOrder := 4 } = .error .invalidParameter ∧
    validateAttrs { cfg0Regs with byteOrder := 3 } = .error .unsupported := by decide

/-- 43_commands.md R183's example: `MAX_FRAME_WORDS = 3`, `A.frame_words = 4`. -/
theorem test_setup_too_small :
    after (exec .setup { configured cfg0 with params := { Params.standard with maxFrameWords := 3 } })
      (fun s => (s.result, s.fatalNumber, s.needsSetup)) = some (.bufferTooSmall, 6, true) := by decide

/-- 43_commands.md R184's example, with the latch set before. -/
theorem test_setup :
    after (exec .setup { configured cfg0 with fatal := some .unsupported })
      (fun s => (s.result, s.fatal, s.dec.syncCount, s.dec.saveMode, s.needsSetup)) =
      some (.ok, none, -1, .idle, false) := by decide

/-! ### Decoding -/

/-- 95_test_vectors.md 1.1, DECODE_FIRST. -/
theorem test_decode_first :
    after (exec .decodeFirst
        { configured cfg0 with
          packet := pkt0 16
          payload := payloadOf [0xFE, 0x61, 0x23, 0x45, 0x67, 0x89, 0xFE, 0x6A, 0xBC, 0xDE, 0xF0, 0x12] })
      (fun s => ((s.dec.wordAt 0, s.dec.wordAt 1, s.dec.wordAt 2, s.dec.wordAt 3), s.dec.testWord,
        s.dec.bitPosition, s.dec.syncCount, s.dec.frameTime, s.statusWord)) =
      some ((0x123, 0x456, 0x789, 0), 0x0FE6123456789FE6, 60, 1, 1120, 0x132) := by decide +kernel

/-- 95_test_vectors.md 4.1, third row: an odd region refused after the setup. -/
theorem test_decode_first_odd_swap :
    after (exec .decodeFirst
        { configured { cfg0 with byteSwap := true } with packet := pkt0 7, payload := payloadOf [1, 2, 3] })
      (fun s => (s.result, s.needsSetup, s.pktReady, s.dec.bitPosition, s.fatal)) =
      some (.invalidData, false, false, 0, none) := by decide

/-- 95_test_vectors.md 1.1, DECODE_NEXT from the state its table gives after DECODE_FIRST. -/
theorem test_decode_next :
    after (exec .decodeNext
        { ready cfg0
            { Decoder.setupValue with
              testWord := 0x0FE6123456789FE6, bitsLoaded := 60, bitPosition := 60, mfWordCount := 1, syncCount := 1
              saveMode := .collecting, frameTime := 1120, frameValid := true
              outWord := [(0, 0x123), (1, 0x456), (2, 0x789)] } with
          pkt := pkt0 16, pktReady := true
          payload := payloadOf [0xFE, 0x61, 0x23, 0x45, 0x67, 0x89, 0xFE, 0x6A, 0xBC, 0xDE, 0xF0, 0x12] })
      (fun s => ((s.dec.wordAt 0, s.dec.wordAt 1, s.dec.wordAt 2), s.dec.testWord, s.dec.mfBitCount,
        s.dec.mfWordCount, s.dec.saveMode, s.statusWord)) =
      some ((0xABC, 0xDEF, 0x012), 0x6789FE6ABCDEF012, 36, 4, .full, 0x222) := by decide +kernel

/-- 43_commands.md R186: no packet loaded. -/
theorem test_decode_next_no_packet :
    after (exec .decodeNext (ready cfg0 Decoder.setupValue)) (·.result) = some .illegalCommand := by decide

/-- 40_bit_sync.md R106 and R108's examples: the releasing bit at `BIT_POSITION = 60`. -/
theorem test_feed_bit_release :
    after (exec (.feedBit false) { ready cfg0 (atBracket 0) with pkt := pkt0 16 })
      (fun s => (s.result, s.dec.syncCount, s.dec.frameTime, s.dec.mfWordCount, s.dec.saveMode)) =
      some (.frame, 1, 1120, 1, .collecting) := by decide

/-- 41_word_extractor.md R140's example: the twelfth bit of a word completes it. -/
theorem test_feed_bit_word :
    after (exec (.feedBit true) (ready cfg0 (collecting 11)))
      (fun s => (s.dec.wordAt 0, s.dec.dwBitCount, s.dec.mfWordCount, s.dec.saveMode, s.dec.frameValid)) =
      some (0x123, 0, 2, .collecting, false) := by decide

/-- 95_test_vectors.md 2.1. -/
theorem test_bit_at :
    (List.range 16).map (bitAt Params.standard (payloadOf [0xA5, 0x3C])) =
      [true, false, true, false, false, true, false, true, false, false, true, true, true, true, false, false] := by
  decide

/-- 95_test_vectors.md 2.8, the rows that round below, wrap, and start before the packet. -/
theorem test_timestamp :
    timestamp { cfg0 with timePerBit := 0x355555555 } 5000 4 = 4853 ∧
    timestamp { cfg0 with timePerBit := 0x355555555 } 5000 60 = 5039 ∧
    timestamp { cfg0 with timePerBit := 0x355555555 } 5000 0 = 4840 ∧
    timestamp { cfg0 with timePerBit := 0x100000000 } 0x7FFFFFFFFFFFFFFF 49 = 0x8000000000000000 ∧
    timestamp { cfg0 with timePerBit := 0xFFFFFFFFFFFFFFFF } 0 0 = BitVec.ofInt 64 (-206158430208) := by decide

/-- 95_test_vectors.md 2.9. -/
theorem test_cap :
    (loadBit false { Decoder.setupValue with bitsLoaded := 1000000000000 }).bitsLoaded = 1000000000 ∧
    (loadBit false { Decoder.setupValue with bitsLoaded := 999999999999 }).bitsLoaded = 1000000000000 ∧
    (loadBit false { Decoder.setupValue with bitsLoaded := 1000000000 }).bitsLoaded = 1000000001 := by decide

/-- 41_word_extractor.md R144's examples, and its word 0. -/
theorem test_parity :
    parityError .even 0x003 = false ∧ parityError .even 0x007 = true ∧ parityError .odd 0x003 = true ∧
    parityError .odd 0x007 = false ∧ parityError .odd 0 = true ∧ parityError .even 0 = false ∧
    parityError .none 0x007 = false := by decide

/-! ### The swaps -/

/-- Payload bytes 00 to 0B, the descriptor among them (95_test_vectors.md 4.2). -/
def counting : List Host.Cell := (List.range 12).map fun k => (k, BitVec.ofNat 8 k)

/-- The twelve bytes of a payload. -/
def twelve (s : State) : List Byte := (List.range 12).map (Memory.read s.payload)

/-- 43_commands.md R188's example. -/
theorem test_swap_bytes :
    after (exec .swapBytes { State.reset with packet := pkt0 10, payload := counting })
      (fun s => (s.result, twelve s)) = some (.ok, [0, 1, 2, 3, 5, 4, 7, 6, 9, 8, 10, 11]) := by decide

/-- 95_test_vectors.md 4.2: too short, and while fatal. -/
theorem test_swap_bytes_short :
    after (exec .swapBytes { State.reset with packet := pkt0 3, fatal := some .unsupported })
      (fun s => (s.result, s.fatal)) = some (.noMoreData, some .unsupported) := by decide

/-- 43_commands.md R189's example. -/
theorem test_swap_shorts :
    after (exec .swapShorts { State.reset with packet := pkt0 12, payload := counting })
      (fun s => (s.result, twelve s)) = some (.ok, [0, 1, 2, 3, 6, 7, 4, 5, 10, 11, 8, 9]) := by decide

/-- 43_commands.md R189's example: six data bytes. -/
theorem test_swap_shorts_bad_length :
    after (exec .swapShorts { State.reset with packet := pkt0 10, payload := counting })
      (fun s => (s.result, twelve s)) = some (.invalidData, [0, 1, 2, 3, 4, 5, 6, 7, 8, 9, 10, 11]) := by decide

/-- 42_byte_swap.md R164's example: both swaps reverse each 32-bit unit. -/
theorem test_fixup_reverses :
    (match byteSwapFixup Params.standard { cfg0 with byteSwap := true } { pkt0 8 with mode := 3 }
        (payloadOf [0x45, 0x23, 0x61, 0xFE]) with
      | .ok m => (List.range 8).map (Memory.read m)
      | .error _ => []) = [0, 0, 0, 0, 0xFE, 0x61, 0x23, 0x45] := by decide

/-! ### The window -/

/-- 30_encoding.md R88: `WR SYNC_PATTERN, 0xFE6` is the write (0x028, 0xFE6). -/
theorem test_wr_sync_pattern :
    lineTurns (.wr .syncPattern 0xFE6) = [.host (.write 0x028 8 0xFE6)] ∧
    after (hostAccess (.write 0x028 8 0xFE6) State.reset) (·.regs.syncPattern) = some 0xFE6 := by decide

/-- 20_memory.md R63: the low byte of a 4-byte write goes to the lowest offset. -/
theorem test_byte_lanes :
    after (hostAccess (.write 0x100004 4 0x11223344) State.reset)
      (fun s => (s.payload, windowRead s 0x100004 4, windowRead s 0x100006 2)) =
      some ([(4, 0x44), (5, 0x33), (6, 0x22), (7, 0x11)], 0x11223344, 0x1122) := by decide

/-- 20_memory.md R62: a narrow access of a register and a misaligned one of the payload are refused. -/
theorem test_refused_accesses :
    next? (hostAccess (.read 0x008 4) State.reset) = none ∧
    next? (hostAccess (.write 0x100002 4 0) State.reset) = none ∧
    next? (hostAccess (.read 0x00C 8) State.reset) = none := by decide

/-! ### Witnesses: command words and steps -/

theorem witness_IllegalWordCompletesIllegalCommand :
    (∃ s : State, s.turns = [] ∧ s.pendingCmd = some 0x8) ∧
    (∃ s : State, s.turns = [.block, .host (.read 0x008 8)] ∧ s.pendingCmd = some 0x8) ∧
    IllegalWord 0x8 ∧ IllegalWord 0xFF ∧ IllegalWord 0x200 ∧ IllegalWord 0x8000000000000005 ∧ IllegalWord 0x100 ∧
    IllegalWord 0x107 ∧ ¬ IllegalWord 0x7 ∧ ¬ IllegalWord 0x105 := by
  refine ⟨⟨{ State.reset with pendingCmd := some 0x8 }, rfl, rfl⟩,
    ⟨{ State.reset with pendingCmd := some 0x8, turns := [.block, .host (.read 0x008 8)] }, rfl, rfl⟩, ?_⟩
  unfold IllegalWord
  decide

theorem witness_StepRunsTheDecodedCommand :
    decode 0x7 = .ok .swapShorts ∧
    (∃ s : State, s.pendingCmd = some 0x7 ∧ s.turns = []) ∧
    ∃ s : State, s.pendingCmd = some 0x7 ∧ s.turns = [.block, .block] :=
  ⟨by decide, ⟨{ State.reset with pendingCmd := some 0x7 }, rfl, rfl⟩,
    ⟨{ State.reset with pendingCmd := some 0x7, turns := [.block, .block] }, rfl, rfl⟩⟩

theorem witness_StepWithoutACommand :
    (∃ s : State, s.turns = [.host (.read 0x008 8)]) ∧ (∃ s : State, s.pendingCmd = none ∧ s.turns = []) ∧
    ∃ s : State, s.pendingCmd = none ∧ s.turns = [.block] :=
  ⟨⟨{ State.reset with turns := [.host (.read 0x008 8)] }, rfl⟩, ⟨State.reset, rfl, rfl⟩,
    ⟨{ State.reset with turns := [.block] }, rfl, rfl⟩⟩

/-! ### Witnesses: CONFIGURE and SETUP -/

/-- Every attribute at the lower end of its range. -/
def lowRegs : AttrRegs :=
  { wordLen := 1, frameWords := 2, frameBits := 0, syncPattern := 1, syncMask := 1, syncLen := 1, minSync := 0,
    parity := 0, byteOrder := 0, timePerBit := 0 }

/-- Every attribute at the upper end of its range, the frame length given. -/
def highRegs : AttrRegs :=
  { wordLen := 64, frameWords := 0xFFFFFFFF, frameBits := BitVec.allOnes 64, syncPattern := BitVec.allOnes 64,
    syncMask := BitVec.allOnes 64, syncLen := 64, minSync := 0x7FFFFFFFFFFFFFFF, parity := 6, byteOrder := 1,
    timePerBit := BitVec.allOnes 64 }

theorem lowRegs_inRange : lowRegs.InRange :=
  ⟨by decide, by decide, by decide, (maskInLength_iff _ (by decide)).1 (by decide),
    (patternInMask_iff _ _).1 (by decide), by decide, by decide, by decide⟩

theorem highRegs_inRange : highRegs.InRange :=
  ⟨by decide, by decide, by decide, (maskInLength_iff _ (by decide)).1 (by decide),
    (patternInMask_iff _ _).1 (by decide), by decide, by decide, by decide⟩

/-- The passing clause and the LSB_FIRST clause, at both ends of the ranges. -/
theorem witness_ConfigureValidatesAndLatches :
    (lowRegs.InRange ∧ lowRegs.byteOrder.getLsbD 1 = false) ∧
    (highRegs.InRange ∧ highRegs.byteOrder.getLsbD 1 = false) ∧
    ({ lowRegs with byteOrder := 2 }.InRange ∧ BitVec.getLsbD (2 : Word) 1 = true) ∧
    ({ highRegs with byteOrder := 3 }.InRange ∧ BitVec.getLsbD (3 : Word) 1 = true) := by
  obtain ⟨h1, h2, h3, h4, h5, h6, h7, -⟩ := lowRegs_inRange
  obtain ⟨k1, k2, k3, k4, k5, k6, k7, -⟩ := highRegs_inRange
  exact ⟨⟨lowRegs_inRange, by decide⟩, ⟨highRegs_inRange, by decide⟩,
    ⟨⟨h1, h2, h3, h4, h5, h6, h7, by decide⟩, by decide⟩, ⟨⟨k1, k2, k3, k4, k5, k6, k7, by decide⟩, by decide⟩⟩

/-- The failing clause, one value past each end. -/
theorem witness_ConfigureValidatesAndLatches_fails :
    ¬ { lowRegs with wordLen := 0 }.InRange ∧ ¬ { highRegs with wordLen := 65 }.InRange ∧
    ¬ { lowRegs with frameWords := 1 }.InRange ∧ ¬ { highRegs with frameWords := 0x100000000 }.InRange ∧
    ¬ { lowRegs with syncLen := 0 }.InRange ∧ ¬ { highRegs with syncLen := 65 }.InRange ∧
    ¬ { lowRegs with syncMask := 3 }.InRange ∧ ¬ { lowRegs with syncMask := 0 }.InRange ∧
    ¬ { highRegs with minSync := 0x8000000000000000 }.InRange ∧ ¬ { lowRegs with parity := 3 }.InRange ∧
    ¬ { lowRegs with parity := 8 }.InRange ∧ ¬ { lowRegs with byteOrder := 4 }.InRange :=
  ⟨fun h => absurd h.wordLen (by decide), fun h => absurd h.wordLen (by decide),
    fun h => absurd h.frameWords (by decide), fun h => absurd h.frameWords (by decide),
    fun h => absurd h.syncLen (by decide), fun h => absurd h.syncLen (by decide),
    fun h => absurd (h.mask 1 (by decide)) (by decide), fun h => absurd (h.pattern 0 (by decide)) (by decide),
    fun h => absurd h.minSync (by decide), fun h => absurd h.parity (by decide),
    fun h => absurd h.parity (by decide), fun h => absurd h.byteOrder (by decide)⟩

/-- A derived length (the first) and a given one (the second). -/
theorem witness_FrameLengthIsGivenOrDerived :
    (lowRegs.InRange ∧ lowRegs.byteOrder.getLsbD 1 = false ∧ lowRegs.frameBits.toNat = 0) ∧
    highRegs.InRange ∧ highRegs.byteOrder.getLsbD 1 = false ∧ highRegs.frameBits.toNat ≠ 0 :=
  ⟨⟨lowRegs_inRange, by decide⟩, highRegs_inRange, by decide⟩

/-- A frame that just fits, one that just does not, and no attribute set. -/
theorem witness_SetupResetsTheDecoder :
    (∃ (s : State) (a : Attrs), s.attrs = some a ∧ a.frameWords.toNat = s.params.maxFrameWords) ∧
    (∃ (s : State) (a : Attrs), s.attrs = some a ∧ a.frameWords.toNat = s.params.maxFrameWords + 1) ∧
    ∃ s : State, s.attrs = none :=
  ⟨⟨configured { cfg0 with frameWords := 8192 }, _, rfl, by decide⟩,
    ⟨configured { cfg0 with frameWords := 8193 }, _, rfl, by decide⟩, State.reset, rfl⟩

/-! ### Witnesses: DECODE_FIRST, DECODE_NEXT, RUN -/

theorem witness_DecodeFirstRefusesBeforeSetup :
    (∃ s : State, s.fatal = some .unsupported) ∧ (∃ s : State, s.fatal = none ∧ s.attrs = none) ∧
    (∃ s : State, s.fatal = none ∧ s.attrs = some cfg0 ∧ s.packet.len.toNat + 1 = s.params.csdwBytes) ∧
    (∃ s : State, s.fatal = none ∧ s.attrs = some cfg0 ∧ s.params.csdwBytes ≤ s.packet.len.toNat ∧
      s.packet.len.toNat = s.params.maxPayloadBytes + 1) ∧
    ∃ (s : State) (a : Attrs), s.fatal = none ∧ s.attrs = some a ∧ s.packet.len.toNat = s.params.csdwBytes ∧
      s.packet.len.toNat ≤ s.params.maxPayloadBytes ∧ s.needsSetup = true ∧
      s.params.maxFrameWords < a.frameWords.toNat :=
  ⟨⟨{ State.reset with fatal := some .unsupported }, rfl⟩, ⟨State.reset, rfl, rfl⟩,
    ⟨{ configured cfg0 with packet := pkt0 3 }, rfl, rfl, by decide⟩,
    ⟨{ configured cfg0 with packet := pkt0 1048577 }, rfl, rfl, by decide, by decide⟩,
    ⟨{ configured { cfg0 with frameWords := 8193 } with packet := pkt0 4 }, _, rfl, rfl, by decide, by decide, rfl,
      by decide⟩⟩

/-- What DECODE_FIRST asks of a state before its step 8. -/
def PassesSetup (s : State) (a : Attrs) : Prop :=
  s.fatal = none ∧ s.attrs = some a ∧ s.params.csdwBytes ≤ s.packet.len.toNat ∧
    s.packet.len.toNat ≤ s.params.maxPayloadBytes ∧
    (s.needsSetup = true → a.frameWords.toNat ≤ s.params.maxFrameWords)

/-- Non-throughput mode; an odd region; a region of two bytes with `ALIGN32 = 1`. -/
theorem witness_DecodeFirstRefusesAfterSetup :
    (∃ s : State, PassesSetup s cfg0 ∧ s.packet.mode.getLsbD 0 = false) ∧
    (∃ (s : State) (a : Attrs), PassesSetup s a ∧ s.packet.mode.getLsbD 0 = true ∧ a.byteSwap = true ∧
      (s.packet.len.toNat - s.params.csdwBytes) % 2 ≠ 0) ∧
    ∃ (s : State) (a : Attrs), PassesSetup s a ∧ s.packet.mode.getLsbD 0 = true ∧ a.byteSwap = true ∧
      s.packet.mode.getLsbD 1 = true ∧ (s.packet.len.toNat - s.params.csdwBytes) % 4 = 2 :=
  ⟨⟨{ configured cfg0 with packet := { pkt0 4 with mode := 0 } }, ⟨rfl, rfl, by decide, by decide, by decide⟩,
      by decide⟩,
    ⟨{ configured { cfg0 with byteSwap := true } with packet := pkt0 5 }, _,
      ⟨rfl, rfl, by decide, by decide, by decide⟩, by decide, rfl, by decide⟩,
    ⟨{ configured { cfg0 with byteSwap := true } with packet := { pkt0 6 with mode := 3 } }, _,
      ⟨rfl, rfl, by decide, by decide, by decide⟩, by decide, rfl, by decide, by decide⟩⟩

/-- The shortest and the longest packet, setup still needed and already done. -/
theorem witness_DecodeFirstRunsTheNewPacket :
    (∃ s : State, PassesSetup s cfg0 ∧ s.packet.len.toNat = s.params.csdwBytes ∧ s.packet.mode.getLsbD 0 = true ∧
      byteSwapFixup s.params cfg0 s.packet s.payload = .ok s.payload ∧ s.needsSetup = true) ∧
    ∃ s : State, PassesSetup s cfg0 ∧ s.packet.len.toNat = s.params.maxPayloadBytes ∧
      s.packet.mode.getLsbD 0 = true ∧ byteSwapFixup s.params cfg0 s.packet s.payload = .ok s.payload ∧
      s.needsSetup = false :=
  ⟨⟨{ configured cfg0 with packet := pkt0 4 }, ⟨rfl, rfl, by decide, by decide, by decide⟩, by decide, by decide,
      rfl, rfl⟩,
    ⟨{ ready cfg0 Decoder.setupValue with packet := pkt0 1048576 },
      ⟨rfl, rfl, by decide, by decide, by decide⟩, by decide, by decide, rfl, rfl⟩⟩

theorem witness_DecodeFirstSwapsTheDataRegion :
    (∃ s : State, PassesSetup s cfg0 ∧ s.packet.mode.getLsbD 0 = true ∧ cfg0.byteSwap = false) ∧
    (∃ (s : State) (a : Attrs), PassesSetup s a ∧ s.packet.mode.getLsbD 0 = true ∧ a.byteSwap = true ∧
      s.packet.mode.getLsbD 1 = false ∧ s.packet.len.toNat - s.params.csdwBytes = 2) ∧
    ∃ (s : State) (a : Attrs), PassesSetup s a ∧ s.packet.mode.getLsbD 0 = true ∧ a.byteSwap = true ∧
      s.packet.mode.getLsbD 1 = true ∧ s.packet.len.toNat - s.params.csdwBytes = 4 :=
  ⟨⟨{ configured cfg0 with packet := pkt0 4 }, ⟨rfl, rfl, by decide, by decide, by decide⟩, by decide, rfl⟩,
    ⟨{ configured { cfg0 with byteSwap := true } with packet := pkt0 6 }, _,
      ⟨rfl, rfl, by decide, by decide, by decide⟩, by decide, rfl, by decide, by decide⟩,
    ⟨{ configured { cfg0 with byteSwap := true } with packet := { pkt0 8 with mode := 3 } }, _,
      ⟨rfl, rfl, by decide, by decide, by decide⟩, by decide, rfl, by decide, by decide⟩⟩

theorem witness_DecodeNextResumesThePacket :
    (∃ s : State, s.fatal = some .invalidParameter) ∧ (∃ s : State, s.fatal = none ∧ s.attrs = none) ∧
    (∃ s : State, s.fatal = none ∧ s.attrs = some cfg0 ∧ s.pktReady = false) ∧
    ∃ s : State, s.fatal = none ∧ s.attrs = some cfg0 ∧ s.pktReady = true :=
  ⟨⟨{ State.reset with fatal := some .invalidParameter }, rfl⟩, ⟨State.reset, rfl, rfl⟩,
    ⟨ready cfg0 Decoder.setupValue, rfl, rfl, rfl⟩,
    ⟨{ ready cfg0 Decoder.setupValue with pktReady := true }, rfl, rfl, rfl⟩⟩

/-- No bits left; one bit left that releases; one bit left that does not. -/
theorem witness_RunFollowsItsLoop :
    dataBits Params.standard (pkt0 5) < 2 ^ 64 ∧
    (∃ d : Decoder, d.bitPosition.toNat = dataBits Params.standard (pkt0 5)) ∧
    (∃ d : Decoder, d.bitPosition.toNat + 1 = dataBits Params.standard (pkt0 5) ∧
      (stepBit cfg0 1000 (bitAt Params.standard [(4, 0)] d.bitPosition.toNat) d).2 = true) ∧
    ∃ d : Decoder, d.bitPosition.toNat + 1 = dataBits Params.standard (pkt0 5) ∧
      (stepBit cfg0 1000 (bitAt Params.standard [(4, 0)] d.bitPosition.toNat) d).2 = false :=
  ⟨by decide, ⟨{ Decoder.setupValue with bitPosition := 8 }, by decide⟩,
    ⟨{ atBracket 0 with bitPosition := 7 }, by decide, by decide⟩,
    ⟨{ Decoder.setupValue with bitPosition := 7 }, by decide, by decide⟩⟩

/-- An empty region, and one of eight bits. -/
theorem witness_RunWithoutReleaseFeedsEveryBit :
    (dataBits Params.standard (pkt0 4) < 2 ^ 64 ∧
      Decoder.setupValue.bitPosition.toNat = dataBits Params.standard (pkt0 4) ∧
      (run Params.standard cfg0 (pkt0 4) [] Decoder.setupValue).2 = false) ∧
    dataBits Params.standard (pkt0 5) < 2 ^ 64 ∧
    Decoder.setupValue.bitPosition.toNat ≤ dataBits Params.standard (pkt0 5) ∧
    (run Params.standard cfg0 (pkt0 5) [(4, 0xA5)] Decoder.setupValue).2 = false := by decide

/-- One bit left that releases, and one that does not. -/
theorem witness_DecodeNextEqualsFeedBits :
    ∀ d ∈ [{ atBracket 0 with bitPosition := 7 }, { Decoder.setupValue with bitPosition := 7 }], ∃ s : State,
      s.dec = d ∧ s.fatal = none ∧ s.needsSetup = false ∧ s.attrs = some cfg0 ∧ s.pktReady = true ∧
      dataBits s.params s.pkt < 2 ^ 64 ∧ s.dec.bitPosition.toNat < dataBits s.params s.pkt := by
  intro d hd
  have hb : dataBits Params.standard (pkt0 5) < 2 ^ 64 := by decide
  refine ⟨{ ready cfg0 d with pktReady := true, pkt := pkt0 5, payload := [(4, 0)] }, rfl, rfl, rfl, rfl, rfl, hb, ?_⟩
  simp only [List.mem_cons, List.not_mem_nil, or_false] at hd
  rcases hd with rfl | rfl <;> decide

/-- Twelve bits of a frame's trailing sync: three fed, eight in the first packet, the last in the second. -/
def splitStart : Decoder :=
  { atBracket 0 with testWord := 7, bitsLoaded := 12, mfBitCount := 39, bitPosition := 0 }

/-- The premises, a first packet that uses its bits up from cursor 0 and from its end, and the release after it. -/
theorem witness_SplittingAPacketKeepsItsReleases :
    dataBits Params.standard (pkt0 6) = dataBits Params.standard (pkt0 5) + dataBits Params.standard (pkt0 5) ∧
    dataBits Params.standard (pkt0 6) < 2 ^ 64 ∧
    (∀ i, i < dataBits Params.standard (pkt0 5) →
      bitAt Params.standard [(4, 0xF3), (5, 0x3C)] i = bitAt Params.standard [(4, 0xF3)] i) ∧
    (∀ i, i < dataBits Params.standard (pkt0 5) →
      bitAt Params.standard [(4, 0xF3), (5, 0x3C)] (dataBits Params.standard (pkt0 5) + i) =
        bitAt Params.standard [(4, 0x3C)] i) ∧
    splitStart.bitPosition.toNat ≤ dataBits Params.standard (pkt0 5) ∧
    (run Params.standard cfg0 (pkt0 5) [(4, 0xF3)] splitStart).2 = false ∧
    { splitStart with bitPosition := 8 }.bitPosition.toNat = dataBits Params.standard (pkt0 5) ∧
    (run Params.standard cfg0 (pkt0 5) [(4, 0xF3)] { splitStart with bitPosition := 8 }).2 = false ∧
    (run Params.standard cfg0 (pkt0 6) [(4, 0xF3), (5, 0x3C)] splitStart).2 = true ∧
    dataBits Params.standard (pkt0 5) * cfg0.timePerBit.toNat % 2 ^ 32 = 0 ∧
    (1080 : Word) =
      BitVec.ofInt 64
        ((pkt0 6).baseTime.toInt + (dataBits Params.standard (pkt0 5) * cfg0.timePerBit.toNat / 2 ^ 32 : Nat)) := by
  decide +kernel

/-- A first packet that releases, its base the whole packet's. -/
theorem witness_SplittingAPacketKeepsItsReleases_first :
    (run Params.standard cfg0 (pkt0 5) [(4, 0x60)] { atBracket 0 with
      testWord := 0xFE, bitsLoaded := 12, mfBitCount := 44, bitPosition := 0 }).2 = true ∧
    (pkt0 5).baseTime = (pkt0 6).baseTime := by
  decide +kernel

/-- Two states a first packet's eight bits apart: at the second packet's start, and resumed inside it. -/
theorem witness_SplittingAPacketKeepsItsReleases_resumed :
    Decoder.SameStream 8 { splitStart with bitPosition := 8 } { splitStart with bitPosition := 0 } ∧
    Decoder.SameStream 8 { atBracket 1 with bitPosition := 15, frameTime := 5 } { atBracket 1 with bitPosition := 7 } :=
  ⟨⟨rfl, rfl⟩, rfl, rfl⟩

/-! ### Witnesses: one bit step -/

theorem cfg0_valid : cfg0.Valid :=
  ⟨by decide, by decide, by decide, (maskInLength_iff _ (by decide)).1 (by decide),
    (patternInMask_iff _ _).1 (by decide), by decide, by decide⟩

theorem tiny_valid : (tiny 1).Valid :=
  ⟨by decide, by decide, by decide, (maskInLength_iff _ (by decide)).1 (by decide),
    (patternInMask_iff _ _).1 (by decide), by decide, by decide⟩

theorem witness_StreamBitsAreMostSignificantFirst : 0 < 8 ∧ 7 < 8 := by decide

/-- At the cap, below it, and at the last value that does not wrap. -/
theorem witness_EveryBitIsShiftedCountedAndCapped :
    (∀ v ∈ [(0 : Word), 999999999999, 1000000000000, 0xFFFFFFFFFFFFFFFE], v.toNat + 1 < 2 ^ 64) ∧ cfg0.Valid ∧
    (tiny 1).Valid :=
  ⟨by simp, cfg0_valid, tiny_valid⟩

/-- The gate just passed and just not. -/
theorem witness_SyncFiresOnAnExactMaskedMatch :
    cfg0.Valid ∧ (tiny 1).Valid ∧ syncTest cfg0 { atSync with testWord := 0xFE6, bitsLoaded := 12 } = true ∧
    syncTest cfg0 { atSync with testWord := 0xFE6 } = false ∧
    cfg0.syncLen.toNat ≤ ({ atSync with bitsLoaded := 12 } : Decoder).bitsLoaded.toNat :=
  ⟨cfg0_valid, tiny_valid, by decide, by decide, by decide⟩

theorem witness_FeedBitIsRefusedBeforeSetup :
    (∃ s : State, s.fatal = some .bufferTooSmall) ∧ (∃ s : State, s.fatal = none ∧ s.needsSetup = true) ∧
    ∃ s : State, s.fatal = none ∧ s.needsSetup = false ∧ s.attrs = none :=
  ⟨⟨{ State.reset with fatal := some .bufferTooSmall }, rfl⟩, ⟨State.reset, rfl, rfl⟩,
    ⟨{ State.reset with needsSetup := false }, rfl, rfl, rfl⟩⟩

/-- What FEED_BIT asks of a state before its step 3. -/
def CanFeed (s : State) (a : Attrs) : Prop := s.fatal = none ∧ s.needsSetup = false ∧ s.attrs = some a

theorem ready_canFeed (a : Attrs) (d : Decoder) : CanFeed (ready a d) a := ⟨rfl, rfl, rfl⟩

/-- IDLE and FULL. -/
theorem witness_FeedBitOutsideAFrameOnlyCounts :
    (∃ s : State, CanFeed s cfg0 ∧ syncTest cfg0 (loadBit true s.dec) = false ∧ s.dec.saveMode = .idle) ∧
    ∃ s : State, CanFeed s cfg0 ∧ syncTest cfg0 (loadBit true s.dec) = false ∧ s.dec.saveMode = .full :=
  ⟨⟨ready cfg0 Decoder.setupValue, ready_canFeed _ _, by decide, rfl⟩,
    ⟨ready cfg0 (atBracket 0), ready_canFeed _ _, by decide, rfl⟩⟩

/-- The first sync of a session, and a later one, one bit early. -/
theorem witness_FeedBitAtAWrongOffsetRestarts :
    (∃ s : State, CanFeed s cfg0 ∧ syncTest cfg0 (loadBit false s.dec) = true ∧
      (loadBit false s.dec).mfBitCount ≠ cfg0.frameBits ∧ s.dec.syncCount = -1) ∧
    ∃ s : State, CanFeed s cfg0 ∧ syncTest cfg0 (loadBit false s.dec) = true ∧
      (loadBit false s.dec).mfBitCount + 1 = cfg0.frameBits ∧ s.dec.syncCount = 3 :=
  ⟨⟨ready cfg0 atSync, ready_canFeed _ _, by decide, by decide, by decide⟩,
    ⟨ready cfg0 { atBracket 3 with mfBitCount := 46 }, ready_canFeed _ _, by decide, by decide, by decide⟩⟩

/-- The count just reaches `A.min_sync`; it just does not; the frame is not FULL. -/
theorem witness_FeedBitAtTheCorrectOffsetReleases :
    (∃ (s : State) (a : Attrs), CanFeed s a ∧ syncTest a (loadBit false s.dec) = true ∧
      (loadBit false s.dec).mfBitCount = a.frameBits ∧ s.dec.saveMode = .full ∧
      (a.minSync.toNat : Int) = (satIncSigned s.dec.syncCount).toInt) ∧
    (∃ (s : State) (a : Attrs), CanFeed s a ∧ syncTest a (loadBit false s.dec) = true ∧
      (loadBit false s.dec).mfBitCount = a.frameBits ∧ s.dec.saveMode = .full ∧
      (a.minSync.toNat : Int) = (satIncSigned s.dec.syncCount).toInt + 1) ∧
    ∃ (s : State) (a : Attrs), CanFeed s a ∧ syncTest a (loadBit false s.dec) = true ∧
      (loadBit false s.dec).mfBitCount = a.frameBits ∧ s.dec.saveMode = .idle :=
  ⟨⟨ready { cfg0 with minSync := 2 } (atBracket 1), _, ready_canFeed _ _, by decide, by decide, rfl, by decide⟩,
    ⟨ready { cfg0 with minSync := 3 } (atBracket 1), _, ready_canFeed _ _, by decide, by decide, rfl, by decide⟩,
    ⟨ready cfg0 { atSync with mfBitCount := 47 }, _, ready_canFeed _ _, by decide, by decide, rfl⟩⟩

theorem witness_FeedBitCollectsABit :
    ∃ s : State, CanFeed s cfg0 ∧ syncTest cfg0 (loadBit true s.dec) = false ∧ s.dec.saveMode = .collecting ∧
      s.dec.dwBitCount + 1 ≠ cfg0.wordLen :=
  ⟨ready cfg0 (collecting 10), ready_canFeed _ _, by decide, rfl, by decide⟩

/-- A word of twelve bits, and a word of one that fills the frame. -/
theorem witness_FeedBitStoresACompletedWord :
    (∃ s : State, CanFeed s cfg0 ∧ cfg0.wordLen.toNat ≤ 64 ∧ syncTest cfg0 (loadBit true s.dec) = false ∧
      s.dec.saveMode = .collecting ∧ s.dec.dwBitCount + 1 = cfg0.wordLen) ∧
    ∃ s : State, CanFeed s (tiny 2) ∧ (tiny 2).wordLen.toNat ≤ 64 ∧
      syncTest (tiny 2) (loadBit false s.dec) = false ∧ s.dec.saveMode = .collecting ∧
      s.dec.dwBitCount + 1 = (tiny 2).wordLen ∧ s.dec.mfWordCount + 1 = (tiny 2).frameWords :=
  ⟨⟨ready cfg0 (collecting 11), ready_canFeed _ _, by decide, by decide, rfl, by decide⟩,
    ⟨ready (tiny 2) (collecting 0), ready_canFeed _ _, by decide, by decide, rfl, by decide, by decide⟩⟩

/-- Each row of the table of 40_bit_sync.md R113: a fire; none outside a frame; none inside one, the word and the
frame complete or not. -/
theorem witness_SaveModeFollowsItsTable :
    syncTest cfg0 (loadBit false atSync) = true ∧ syncTest cfg0 (loadBit true (atBracket 0)) = false ∧
    (atBracket 0).saveMode ≠ .collecting ∧ syncTest cfg0 (loadBit true (collecting 11)) = false ∧
    (collecting 11).saveMode = .collecting ∧ (stepBit (tiny 2) 0 false (collecting 0)).1.saveMode = .full ∧
    (stepBit cfg0 0 true (collecting 11)).1.saveMode = .collecting ∧
    (stepBit cfg0 0 false (atBracket 0)).2 = true := by decide

theorem witness_TestWordHoldsTheLastBitsFed : 0 < 64 ∧ 63 < 64 := by decide

/-- Words of one bit, of twelve and of 64, each collected from its first bit. -/
theorem witness_DataWordsAreTheStreamBits :
    (∀ n ∈ [1, 12, 64], ∃ a : Attrs, ∃ bs : List Bool, a.wordLen.toNat = n ∧ 1 ≤ n ∧ n ≤ 64 ∧ bs.length = n ∧
      anyFire a 0 bs (collecting 0) = false) ∧
    (collecting 0).saveMode = .collecting ∧ (collecting 0).dwBitCount = 0 := by
  refine ⟨fun n hn => ?_, rfl, rfl⟩
  simp only [List.mem_cons, List.not_mem_nil, or_false] at hn
  rcases hn with rfl | rfl | rfl
  · exact ⟨tiny 2, [false], by decide, by decide, by decide, rfl, by decide⟩
  · exact ⟨cfg0, List.replicate 12 false, by decide, by decide, by decide, rfl, by decide +kernel⟩
  · exact ⟨{ cfg0 with wordLen := 64 }, List.replicate 64 true, by decide, by decide, by decide, rfl,
      by decide +kernel⟩

/-- Pattern 1, words of one bit, frames of two bits: the stream 1 0 1 releases at its third bit. -/
theorem witness_ReleasedFramesAreBracketed :
    [true, false].length < 2 ^ 64 - 1 ∧
    (stepBit (tiny 2) 0 true (feedAll (tiny 2) 0 [true, false] Decoder.setupValue)).2 = true := by decide

/-- A frame length of just `(A.frame_words - 1) * A.word_len`. -/
theorem witness_TooShortFramesAreNeverReleased :
    (tiny 1).Valid ∧ (tiny 1).frameBits.toNat = ((tiny 1).frameWords.toNat - 1) * (tiny 1).wordLen.toNat :=
  ⟨tiny_valid, by decide⟩

/-- A state with setup done and no sync yet meets the invariant. -/
theorem ready_inv : (ready cfg0 Decoder.setupValue).Inv where
  params := by decide
  attrs := fun a h => by cases h; exact cfg0_valid
  decoder := fun _ => ⟨cfg0, rfl, by
    constructor <;> decide⟩
  syncCount := by decide
  bitsLoaded := by decide
  frameValid := fun h => by cases h
  packet := fun h => by cases h
  fatal := fun c h => by cases h
  outWord := by decide
  outErr := by decide
  payload := by decide

theorem witness_FirstSyncIsNoErrorAndNoRelease :
    ∃ s : State, s.Inv ∧ s.fatal = none ∧ s.needsSetup = false ∧ s.dec.syncCount = -1 :=
  ⟨ready cfg0 Decoder.setupValue, ready_inv, rfl, rfl, rfl⟩

/-- 95_test_vectors.md 2.8: an exact offset below the base, and one that rounds. -/
theorem witness_TimestampRoundsTowardMinusInfinity :
    ((-160 : Int) * 2 ^ 32 ≤ ((0 : Int) - 48) * 0x355555555 + 48 * 0x100000000 ∧
      (-147 : Int) * 2 ^ 32 ≤ ((4 : Int) - 48) * 0x355555555 ∧
      ((4 : Int) - 48) * 0x355555555 < (-147 + 1) * 2 ^ 32) ∧
    (120 : Int) * 2 ^ 32 = ((60 : Int) - 48) * 0xA00000000 := by decide

theorem witness_ParityFlagCountsSetBits : 0 < 64 ∧ 63 < 64 ∧ ParityMode.odd ≠ .none ∧ ParityMode.even ≠ .none := by
  decide

/-! ### Witnesses: the swaps and the rules over every command -/

/-- Length conditions of the swaps: an empty region and a region of one unit. -/
theorem witness_SwapBytesExchangesBytePairs :
    ∀ len ∈ [(4 : Word), 6, 1048576], ∃ s : State, s.packet.len = len ∧ s.params.csdwBytes ≤ s.packet.len.toNat ∧
      s.packet.len.toNat ≤ s.params.maxPayloadBytes ∧ (s.packet.len.toNat - s.params.csdwBytes) % 2 = 0 := by
  intro len h
  refine ⟨{ State.reset with packet := pkt0 len }, rfl, ?_⟩
  simp only [List.mem_cons, List.not_mem_nil, or_false] at h
  rcases h with rfl | rfl | rfl <;> decide

theorem witness_SwapShortsExchangesHalves :
    ∀ len ∈ [(4 : Word), 8, 1048576], ∃ s : State, s.packet.len = len ∧ s.params.csdwBytes ≤ s.packet.len.toNat ∧
      s.packet.len.toNat ≤ s.params.maxPayloadBytes ∧ (s.packet.len.toNat - s.params.csdwBytes) % 4 = 0 := by
  intro len h
  refine ⟨{ State.reset with packet := pkt0 len }, rfl, ?_⟩
  simp only [List.mem_cons, List.not_mem_nil, or_false] at h
  rcases h with rfl | rfl | rfl <;> decide

/-- One byte too short, one too long, and a region of one byte. -/
theorem witness_SwapsRefuseBadLengths :
    (∃ s : State, s.packet.len.toNat + 1 = s.params.csdwBytes) ∧
    (∃ s : State, s.params.csdwBytes ≤ s.packet.len.toNat ∧ s.packet.len.toNat = s.params.maxPayloadBytes + 1) ∧
    ∃ s : State, s.params.csdwBytes ≤ s.packet.len.toNat ∧ s.packet.len.toNat ≤ s.params.maxPayloadBytes ∧
      (s.packet.len.toNat - s.params.csdwBytes) % 2 ≠ 0 ∧ (s.packet.len.toNat - s.params.csdwBytes) % 4 ≠ 0 :=
  ⟨⟨{ State.reset with packet := pkt0 3 }, by decide⟩, ⟨{ State.reset with packet := pkt0 1048577 }, by decide⟩,
    ⟨{ State.reset with packet := pkt0 5 }, by decide⟩⟩

theorem witness_SwapsAreCommutingInvolutions :
    (6 - Params.standard.csdwBytes) % 2 = 0 ∧ (8 - Params.standard.csdwBytes) % 4 = 0 ∧
    (4 - Params.standard.csdwBytes) % 4 = 0 := by decide

/-- Every command answers a next state somewhere, with the latch clear and set. -/
theorem witness_CommandsCompleteWithTheirOwnCodes :
    ∀ i ∈ [Instr.nop, .configure, .setup, .decodeFirst, .decodeNext, .feedBit true, .swapBytes, .swapShorts],
      (∃ s t : State, exec i s = .next t ∧ s.fatal = none) ∧
      ∃ s t : State, exec i s = .next t ∧ s.fatal = some .unsupported := by
  intro i h
  simp only [List.mem_cons, List.not_mem_nil, or_false] at h
  rcases h with rfl | rfl | rfl | rfl | rfl | rfl | rfl | rfl <;>
    exact ⟨⟨State.reset, _, rfl, rfl⟩, ⟨{ State.reset with fatal := some .unsupported }, _, rfl, rfl⟩⟩

/-- A fatal result, another, and a set latch that changes. -/
theorem witness_FatalResultsSetTheLatch :
    (∃ s t : State, exec .setup s = .next t ∧ t.result.isFatal = true) ∧
    (∃ s t : State, exec .nop s = .next t ∧ t.result.isFatal = false) ∧
    ∃ s t : State, exec .setup s = .next t ∧ s.fatal ≠ none ∧ t.fatal ≠ s.fatal :=
  ⟨⟨State.reset, _, rfl, rfl⟩, ⟨State.reset, _, rfl, rfl⟩,
    ⟨{ State.reset with fatal := some .unsupported }, _, rfl, by decide, by decide⟩⟩

theorem witness_OnlySetupClearsTheLatch :
    ∃ s t : State, exec .setup s = .next t ∧ s.fatal ≠ none ∧ t.fatal = none :=
  ⟨{ configured cfg0 with fatal := some .unsupported }, _, rfl, by decide, rfl⟩

theorem witness_LatchBlocksDecoding :
    (∀ i ∈ [Instr.decodeFirst, .decodeNext, .feedBit false, .feedBit true], blockedByLatch i = true) ∧
    ∃ s : State, s.fatal = some .invalidParameter :=
  ⟨by decide, { State.reset with fatal := some .invalidParameter }, rfl⟩

/-- A next state of NOP, and of commands that are none of CONFIGURE, DECODE_FIRST and the swaps. -/
theorem witness_EachRegisterGroupHasItsWriters :
    (∃ s t : State, exec .nop s = .next t) ∧ (∃ s t : State, exec .swapShorts s = .next t) ∧
    ∃ s t : State, exec (.feedBit true) s = .next t :=
  ⟨⟨State.reset, _, rfl⟩, ⟨State.reset, _, rfl⟩, ⟨State.reset, _, rfl⟩⟩

/-- The last descriptor byte and the first byte past the packet. -/
theorem witness_OnlyDataRegionBytesAreSwapped :
    ∃ s t : State, exec .swapBytes s = .next t ∧ 3 < s.params.csdwBytes ∧ s.packet.len.toNat ≤ 6 :=
  ⟨{ State.reset with packet := pkt0 6, payload := payloadOf [0xAA, 0xBB] }, _, rfl, by decide, by decide⟩

/-- A step of the block and one of the host, from a state that meets the invariant. -/
theorem witness_EveryStepKeepsTheInvariant :
    (∃ s t : State, s.Inv ∧ s.turns = [] ∧ step s = .next t) ∧
    ∃ s t : State, s.Inv ∧ s.turns = [.host (.read 0x008 8)] ∧ step s = .next t := by
  obtain ⟨h1, h2, h3, h4, h5, h6, h7, h8, h9, h10, h11⟩ := ready_inv
  exact ⟨⟨ready cfg0 Decoder.setupValue, _, ready_inv, rfl, rfl⟩,
    ⟨{ ready cfg0 Decoder.setupValue with turns := [.host (.read 0x008 8)] }, _,
      ⟨h1, h2, h3, h4, h5, h6, h7, h8, h9, h10, h11⟩, rfl, rfl⟩⟩

/-- Both ends of both capacities. -/
theorem witness_PowerOnMeetsTheInvariant :
    { Params.standard with maxFrameWords := 1, maxPayloadBytes := 4 }.wf = true ∧ Params.standard.wf = true := by
  decide

theorem witness_CommandsNeverStopUnderTheInvariant : ∃ s : State, s.Inv := ⟨_, ready_inv⟩

/-! ### Witnesses: the window -/

/-- A one-byte access at the first payload byte, an eight-byte one at the last eight. -/
theorem witness_PayloadAccessesAreLittleEndian :
    State.reset.busy = false ∧
    ∀ c ∈ [(0, 1), (0xFFFF8, 8)], (c.2 = 1 ∨ c.2 = 2 ∨ c.2 = 4 ∨ c.2 = 8) ∧ c.1 % c.2 = 0 ∧
      c.1 + c.2 ≤ State.reset.params.maxPayloadBytes ∧ c.1 < 0x100000 := by decide

theorem witness_HostReadsChangeNoBlockState :
    (∃ t, hostAccess (.read 0x008 8) State.reset = .next t) ∧
    ∃ t, hostAccess (.read 0x0E8 8) { State.reset with pendingCmd := some 0 } = .next t :=
  ⟨⟨_, rfl⟩, ⟨_, rfl⟩⟩

/-- Registers that no write touches, read while idle: the first, the last and one between (20_memory.md R61). -/
theorem witness_RegistersAnswerAtTheirOffsets :
    State.reset.busy = false ∧
    ∀ off ∈ [0x008, 0x078, 0x0E8], ∃ w,
      hostAccess (.read off 8) State.reset = .next { State.reset with hostData := w } := by
  refine ⟨rfl, fun off h => ?_⟩
  simp only [List.mem_cons, List.not_mem_nil, or_false] at h
  rcases h with rfl | rfl | rfl
  · exact ⟨4, rfl⟩
  · exact ⟨0, rfl⟩
  · exact ⟨0, rfl⟩

theorem witness_CommandWriteSetsBusy : ∃ s : State, s.busy = false := ⟨State.reset, rfl⟩

/-- A write of a register, a read of the last payload byte, and a read of `CMD`, all while BUSY. -/
theorem witness_AccessesWhileBusy :
    ∃ s : State, s.busy = true ∧ (0x010 < windowBytes ∧ accessOk s.params 0x010 8 = true) ∧
      (0x1FFFFF < windowBytes ∧ accessOk s.params 0x1FFFFF 1 = true ∧
        regionAt s.params 0x1FFFFF ≠ .register .status) ∧
      accessOk s.params 0x000 8 = true ∧ regionAt s.params 0x000 ≠ .register .status :=
  ⟨{ State.reset with pendingCmd := some 0 }, by decide⟩

/-- A register read of four bytes, a misaligned payload access, a width of 3, an access that runs past the payload
RAM of an instance of five bytes, and the first offset outside the window. -/
theorem witness_MalformedAccessesAreRefused :
    (∀ c ∈ [(0x008, 4), (0x02FFFC, 4), (0x100002, 4), (0x1FFFFD, 3)],
      c.1 < 0x200000 ∧
        ¬ ((c.2 = 1 ∨ c.2 = 2 ∨ c.2 = 4 ∨ c.2 = 8) ∧ c.1 % c.2 = 0 ∧ (c.1 < 0x030000 → c.2 = 8))) ∧
    (∃ s : State, 0x100000 ≤ 0x100004 ∧ 0x100004 - 0x100000 < s.params.maxPayloadBytes ∧
      ¬ 0x100004 - 0x100000 + 2 ≤ s.params.maxPayloadBytes) ∧ 0x200000 ≤ 0x200000 :=
  ⟨by decide, ⟨State.powerOn { Params.standard with maxPayloadBytes := 5 }, by decide⟩, by decide⟩

/-- The first and last access of each reserved range, in an instance of five output words and five payload bytes,
and the first and last entries of its output RAM. -/
theorem witness_ReservedAndOutputOffsets :
    ∃ s : State, s.busy = false ∧
      (∀ c ∈ [(0x0F0, 8), (0x00FFF8, 8), (0x030000, 8), (0x0FFFFF, 1), (0x010028, 8), (0x01FFF8, 8), (0x020028, 8),
          (0x02FFF8, 8), (0x100005, 1), (0x1FFFF8, 8)],
        (c.2 = 1 ∨ c.2 = 2 ∨ c.2 = 4 ∨ c.2 = 8) ∧ c.1 % c.2 = 0 ∧ (c.1 < 0x030000 → c.2 = 8)) ∧
      (s.params.maxFrameWords ≤ 5 ∧ 8191 < 8192 ∧ 0x010028 = 0x010000 + 8 * 5 ∧ 0x01FFF8 = 0x010000 + 8 * 8191 ∧
        0x020028 = 0x020000 + 8 * 5 ∧ 0x02FFF8 = 0x020000 + 8 * 8191) ∧
      (s.params.maxPayloadBytes ≤ 5 ∧ 0xFFFF8 < 0x100000 ∧ 0x100005 = 0x100000 + 5 ∧
        0x1FFFF8 = 0x100000 + 0xFFFF8) ∧
      0 < s.params.maxFrameWords ∧ 4 < s.params.maxFrameWords ∧ 4 < 8192 :=
  ⟨State.powerOn { Params.standard with maxFrameWords := 5, maxPayloadBytes := 5 }, by decide⟩

theorem witness_StatusFieldsAreAtTheirBits :
    (∃ s : State, s.fatal = none) ∧ ∃ s : State, s.fatal = some .bufferTooSmall :=
  ⟨⟨State.reset, rfl⟩, ⟨{ State.reset with fatal := some .bufferTooSmall }, rfl⟩⟩

/-! ### Witnesses: the bits of a frame -/

/-- CFG0 with a frame length of just its three data words, one word of the frame collected. -/
def shortFrame : Attrs := { cfg0 with frameBits := 36 }

/-- One word and two bits collected: fourteen bits since the sync fire. -/
def inSecondWord : Decoder :=
  { Decoder.setupValue with mfBitCount := 14, mfWordCount := 2, dwBitCount := 2, syncCount := 0, saveMode := .collecting }

theorem shortFrame_valid : shortFrame.Valid :=
  ⟨by decide, by decide, by decide, (maskInLength_iff _ (by decide)).1 (by decide),
    (patternInMask_iff _ _).1 (by decide), by decide, by decide⟩

theorem inSecondWord_inv : (ready shortFrame inSecondWord).Inv where
  params := by decide
  attrs := fun a h => by cases h; exact shortFrame_valid
  decoder := fun _ => ⟨shortFrame, rfl, by
    constructor <;> decide⟩
  syncCount := by decide
  bitsLoaded := by decide
  frameValid := fun h => by cases h
  packet := fun h => by cases h
  fatal := fun c h => by cases h
  outWord := by decide
  outErr := by decide
  payload := by decide

theorem inSecondWord_frameCounted : (ready shortFrame inSecondWord).FrameCounted := fun a _ h => by
  cases h
  exact ⟨fun _ => by decide, fun h => by cases h⟩

/-- A frame in progress, and a step from it. -/
theorem witness_EveryStepKeepsTheFrameCount :
    ∃ s t : State, s.Inv ∧ s.FrameCounted ∧ s.needsSetup = false ∧ s.dec.saveMode = .collecting ∧ step s = .next t :=
  ⟨ready shortFrame inSecondWord, _, inSecondWord_inv, inSecondWord_frameCounted, rfl, rfl, rfl⟩

/-- The longest frame length that is too short. -/
theorem witness_TooShortFramesCompleteNoCommandWithFrame :
    ∃ (s : State) (a : Attrs), s.Inv ∧ s.FrameCounted ∧ s.attrs = some a ∧
      a.frameBits.toNat = (a.frameWords.toNat - 1) * a.wordLen.toNat :=
  ⟨ready shortFrame inSecondWord, shortFrame, inSecondWord_inv, inSecondWord_frameCounted, rfl, by decide⟩

end Sys2Proof.Tests
end

section
/-! SUPPORT. What a step is for each shape of the turn list (log 2), and the block's turn with nothing to do. -/

namespace Sys2Proof.Machine

variable {s : State} {a : Access} {rest : List Turn}

theorem step_of_turns_nil (h : s.turns = []) : step s = blockTurn s := by
  have hnext : nextTurn s = (none, s) := by simp [nextTurn, h]
  simp [step, hnext]

theorem step_of_block_turn (h : s.turns = .block :: rest) : step s = blockTurn { s with turns := rest } := by
  have hnext : nextTurn s = (none, { s with turns := rest }) := by simp [nextTurn, h]
  simp [step, hnext]

theorem step_of_host_turn (h : s.turns = .host a :: rest) : step s = hostAccess a { s with turns := rest } := by
  have hnext : nextTurn s = (some a, { s with turns := rest }) := by simp [nextTurn, h]
  simp [step, hnext]

/-- With no command pending the block has no step (00_scope.md R11). -/
theorem blockTurn_of_idle (h : s.pendingCmd = none) : blockTurn s = .next s := by
  simp [blockTurn, h]

end Sys2Proof.Machine
end

section
/-! PROOFS. The host's turn and the idle block (00_scope.md R11). -/

namespace Sys2Proof.Machine

/-- Settles O5, by the equation of `step` for the turn in question; the idle block's turn then changes nothing. -/
theorem stepWithoutACommand : Obligations.StepWithoutACommand := by
  intro s rest
  refine ⟨fun a hhost => step_of_host_turn hhost, fun hidle hnil => ?_, fun hidle hblock => ?_⟩
  · rw [step_of_turns_nil hnil, blockTurn_of_idle hidle]
  · have hidle' : ({ s with turns := rest } : State).pendingCmd = none := hidle
    rw [step_of_block_turn hblock, blockTurn_of_idle hidle']

end Sys2Proof.Machine
end

section
/-! SUPPORT. All that each command can answer (43_commands.md R181 to R189), in terms of the shared operations. -/

namespace Sys2Proof.Machine

variable {a : Attrs} {s t : State}

theorem execNop_next (h : execNop s = .next t) : t = s.complete .ok :=
  (Host.Outcome.next.inj h).symm

theorem execConfigure_next (h : execConfigure s = .next t) :
    (∃ c, t = s.unconfigure.raise c) ∨
    ∃ a, validateAttrs s.regs = .ok a ∧ t = (s.unconfigure.adopt a).complete .ok := by
  unfold execConfigure at h
  rcases hv : validateAttrs s.regs with c | a <;> rw [hv] at h <;> cases h
  · exact .inl ⟨c, rfl⟩
  · exact .inr ⟨a, rfl, rfl⟩

theorem execSetup_next (h : execSetup s = .next t) :
    (∃ c, t = s.dropPacket.raise c) ∨
    ∃ a, s.attrs = some a ∧ a.frameWords.toNat ≤ s.params.maxFrameWords ∧
      t = s.dropPacket.applySetup.complete .ok := by
  unfold execSetup at h
  rcases ha : s.attrs with _ | a <;> simp only [ha] at h
  · cases h; exact .inl ⟨_, rfl⟩
  · rcases setupCore_cases a s.dropPacket with ⟨-, e⟩ | ⟨hfit, e⟩ <;> rw [e] at h <;> cases h
    · exact .inl ⟨_, rfl⟩
    · exact .inr ⟨a, rfl, hfit, rfl⟩

/-- All the first-invocation setup can pass on (43_commands.md R185 step 7). -/
theorem setupIfNeeded_ok (h : setupIfNeeded a s = .ok t) :
    (s.needsSetup = false ∧ t = s) ∨ (a.frameWords.toNat ≤ s.params.maxFrameWords ∧ t = s.applySetup) := by
  unfold setupIfNeeded at h
  split_ifs at h with hn
  · rcases setupCore_cases a s with ⟨-, e⟩ | ⟨hfit, e⟩ <;> rw [e] at h <;> cases h
    exact .inr ⟨hfit, rfl⟩
  · cases h; exact .inl ⟨by simpa using hn, rfl⟩

/-- All that steps 8 to 11 of DECODE_FIRST can answer (43_commands.md R185). -/
theorem decodeLatched_cases (a : Attrs) (s : State) :
    (∃ c, decodeLatched a s = s.raise c) ∨
    ∃ m, byteSwapFixup s.params a s.pkt s.payload = .ok m ∧
      decodeLatched a s = runPacket a (s.withPayload m).startPacket := by
  unfold decodeLatched
  split_ifs
  · exact .inl ⟨_, rfl⟩
  · rcases byteSwapFixup s.params a s.pkt s.payload with c | m
    · exact .inl ⟨c, rfl⟩
    · exact .inr ⟨m, rfl, rfl⟩

/-- All that steps 5 to 11 of DECODE_FIRST can answer (43_commands.md R185). -/
theorem decodeChecked_cases (a : Attrs) (s : State) :
    (∃ c, decodeChecked a s = s.complete c) ∨ (∃ c, decodeChecked a s = s.raise c) ∨
    ∃ u, lengthRefusal s.params s.pkt.len.toNat = none ∧ setupIfNeeded a s = .ok u ∧
      decodeChecked a s = decodeLatched a u := by
  unfold decodeChecked
  rcases lengthRefusal s.params s.pkt.len.toNat with _ | c
  · rcases setupIfNeeded a s with c | u
    · exact .inr (.inl ⟨c, rfl⟩)
    · exact .inr (.inr ⟨u, rfl, rfl, rfl⟩)
  · exact .inl ⟨c, rfl⟩

theorem execDecodeFirst_next (h : execDecodeFirst s = .next t) :
    (∃ c, t = s.complete c) ∨ (∃ c, t = s.dropPacket.raise c) ∨
    ∃ a, s.attrs = some a ∧ t = decodeChecked a s.dropPacket.latchPacket := by
  unfold execDecodeFirst at h
  rcases hf : s.fatal with _ | c <;> simp only [hf] at h
  · rcases ha : s.attrs with _ | a <;> simp only [ha] at h <;> cases h
    · exact .inr (.inl ⟨_, rfl⟩)
    · exact .inr (.inr ⟨a, rfl, rfl⟩)
  · cases h; exact .inl ⟨c, rfl⟩

theorem execDecodeNext_next (h : execDecodeNext s = .next t) :
    (∃ c, t = s.complete c) ∨ (∃ c, t = s.raise c) ∨
    ∃ a, s.attrs = some a ∧ s.pktReady = true ∧ t = runPacket a s := by
  unfold execDecodeNext at h
  rcases hf : s.fatal with _ | c <;> simp only [hf] at h
  · rcases ha : s.attrs with _ | a <;> simp only [ha] at h <;> cases h
    · exact .inr (.inl ⟨_, rfl⟩)
    · split_ifs with hr
      · exact .inr (.inr ⟨a, rfl, hr, rfl⟩)
      · exact .inl ⟨_, rfl⟩
  · cases h; exact .inl ⟨c, rfl⟩

theorem execFeedBit_next {b : Bool} (h : execFeedBit b s = .next t) :
    (∃ c, t = s.complete c) ∨ ∃ a, s.needsSetup = false ∧ s.attrs = some a ∧ t = feedStep a b s := by
  unfold execFeedBit at h
  rcases hf : s.fatal with _ | c <;> simp only [hf] at h
  · split_ifs at h with hn
    · cases h; exact .inl ⟨_, rfl⟩
    · rcases ha : s.attrs with _ | a <;> simp only [ha] at h <;> cases h
      exact .inr ⟨a, by simpa using hn, rfl, rfl⟩
  · cases h; exact .inl ⟨c, rfl⟩

/-- All a step can answer: the host's access, an idle block, an illegal word, or a command (00_scope.md R11,
43_commands.md R180), each after its turn is taken off the list. -/
theorem step_next (h : step s = .next t) :
    ∃ rest, (∃ acc, hostAccess acc { s with turns := rest } = .next t) ∨ t = { s with turns := rest } ∨
      t = illegalWord { s with turns := rest } ∨ ∃ i, exec i { s with turns := rest } = .next t := by
  have hblock : ∀ rest, blockTurn { s with turns := rest } = .next t →
      t = { s with turns := rest } ∨ t = illegalWord { s with turns := rest } ∨
        ∃ i, exec i { s with turns := rest } = .next t := by
    intro rest hb
    unfold blockTurn performCommand at hb
    split at hb
    · exact .inl (Host.Outcome.next.inj hb).symm
    · split at hb
      · exact .inr (.inl (Host.Outcome.next.inj hb).symm)
      · exact .inr (.inr ⟨_, hb⟩)
  rcases hturns : s.turns with _ | ⟨acc | _, rest⟩
  · exact ⟨s.turns, .inr (hblock _ (step_of_turns_nil hturns ▸ h))⟩
  · exact ⟨rest, .inl ⟨acc, step_of_host_turn hturns ▸ h⟩⟩
  · exact ⟨rest, .inr (hblock _ (step_of_block_turn hturns ▸ h))⟩

end Sys2Proof.Machine
end

section
/-! SUPPORT. The frame of each command: its next state is the old one but for the fields named. -/

namespace Sys2Proof.Machine

variable {s t : State}

theorem execNop_frame (h : execNop s = .next t) : t = { s with result := t.result, pendingCmd := none } := by
  rw [execNop_next h]; rfl

theorem execConfigure_frame (h : execConfigure s = .next t) :
    t = { s with
      attrs := t.attrs, dec := t.dec, needsSetup := t.needsSetup, fatal := t.fatal, pktReady := t.pktReady
      result := t.result, pendingCmd := none } := by
  rcases execConfigure_next h with ⟨c, rfl⟩ | ⟨a, -, rfl⟩ <;> rfl

theorem execSetup_frame (h : execSetup s = .next t) :
    t = { s with
      dec := t.dec, needsSetup := t.needsSetup, fatal := t.fatal, pktReady := t.pktReady
      result := t.result, pendingCmd := none } := by
  rcases execSetup_next h with ⟨c, rfl⟩ | ⟨a, -, -, rfl⟩ <;> rfl

theorem decodeLatched_frame (a : Attrs) (s : State) :
    decodeLatched a s = { s with
      dec := (decodeLatched a s).dec, fatal := (decodeLatched a s).fatal, pktReady := (decodeLatched a s).pktReady
      payload := (decodeLatched a s).payload, result := (decodeLatched a s).result, pendingCmd := none } := by
  rcases decodeLatched_cases a s with ⟨c, e⟩ | ⟨m, -, e⟩ <;> rw [e] <;> rfl

theorem decodeChecked_frame (a : Attrs) (s : State) :
    decodeChecked a s = { s with
      dec := (decodeChecked a s).dec, needsSetup := (decodeChecked a s).needsSetup
      fatal := (decodeChecked a s).fatal, pktReady := (decodeChecked a s).pktReady
      payload := (decodeChecked a s).payload, result := (decodeChecked a s).result, pendingCmd := none } := by
  rcases decodeChecked_cases a s with ⟨c, e⟩ | ⟨c, e⟩ | ⟨u, -, hu, e⟩ <;> rw [e]
  · rfl
  · rfl
  · rcases setupIfNeeded_ok hu with ⟨-, rfl⟩ | ⟨-, rfl⟩
    · rw [decodeLatched_frame]
    · rw [decodeLatched_frame]; rfl

theorem execDecodeFirst_frame (h : execDecodeFirst s = .next t) :
    t = { s with
      pkt := t.pkt, dec := t.dec, needsSetup := t.needsSetup, fatal := t.fatal, pktReady := t.pktReady
      payload := t.payload, result := t.result, pendingCmd := none } := by
  rcases execDecodeFirst_next h with ⟨c, rfl⟩ | ⟨c, rfl⟩ | ⟨a, -, rfl⟩
  · rfl
  · rfl
  · rw [decodeChecked_frame]; rfl

theorem execDecodeNext_frame (h : execDecodeNext s = .next t) :
    t = { s with dec := t.dec, fatal := t.fatal, result := t.result, pendingCmd := none } := by
  rcases execDecodeNext_next h with ⟨c, rfl⟩ | ⟨c, rfl⟩ | ⟨a, -, -, rfl⟩ <;> rfl

theorem execFeedBit_frame {b : Bool} (h : execFeedBit b s = .next t) :
    t = { s with dec := t.dec, result := t.result, pendingCmd := none } := by
  rcases execFeedBit_next h with ⟨c, rfl⟩ | ⟨a, -, -, rfl⟩ <;> rfl

/-- A standalone swap whose only refusal is `INVALID_DATA`, which is not fatal, writes the payload alone. -/
theorem swapCommand_frame {swap : Params → Nat → List Host.Cell → Except ResultCode (List Host.Cell)}
    (hswap : ∀ p len m c, swap p len m = .error c → c = .invalidData) (s : State) :
    swapCommand swap s =
      { s with
        payload := (swapCommand swap s).payload, result := (swapCommand swap s).result, pendingCmd := none } := by
  rcases swapCommand_cases swap s with ⟨c, -, e⟩ | ⟨-, ⟨c, hc, e⟩ | ⟨m, -, e⟩⟩ <;> rw [e]
  · rfl
  · rw [hswap _ _ _ _ hc]; rfl
  · rfl

theorem swap16_error {p : Params} {len : Nat} {m : List Host.Cell} {c : ResultCode} (h : swap16 p len m = .error c) :
    c = .invalidData := by
  rcases swap16_cases p len m with ⟨e, -⟩ | ⟨e, -⟩ <;> rw [e] at h <;> cases h
  rfl

theorem swap32_error {p : Params} {len : Nat} {m : List Host.Cell} {c : ResultCode} (h : swap32 p len m = .error c) :
    c = .invalidData := by
  rcases swap32_cases p len m with ⟨e, -⟩ | ⟨e, -⟩ <;> rw [e] at h <;> cases h
  rfl

theorem execSwapBytes_frame (h : execSwapBytes s = .next t) :
    t = { s with payload := t.payload, result := t.result, pendingCmd := none } := by
  cases h
  exact swapCommand_frame (fun _ _ _ _ => swap16_error) s

theorem execSwapShorts_frame (h : execSwapShorts s = .next t) :
    t = { s with payload := t.payload, result := t.result, pendingCmd := none } := by
  cases h
  exact swapCommand_frame (fun _ _ _ _ => swap32_error) s

end Sys2Proof.Machine
end

section
/-! SUPPORT. The part of the invariant that speaks of the decoder state while setup is done, and that every bit step
keeps it (10_state.md R53, 41_word_extractor.md R142, R147). -/

namespace Sys2Proof.Machine

/-- What the invariant asks of the decoder state once setup is done with the set `a` (`State.Inv.running` and
`State.Inv.withDec` tie it to the invariant). -/
structure Decoder.Running (p : Params) (a : Attrs) (d : Decoder) : Prop where
  consistent : d.Consistent p a
  syncCount : -1 ≤ d.syncCount.toInt
  bitsLoaded : d.bitsLoaded.toNat ≤ capLimit
  frameValid : d.frameValid = true → d.saveMode = .collecting ∧ d.mfWordCount = 1
  outWord : OutRam.wf 0 d.outWord ∧ ∀ c ∈ d.outWord, c.1 < p.maxFrameWords
  outErr : OutRam.wf false d.outErr ∧ ∀ c ∈ d.outErr, c.1 < p.maxFrameWords

variable {p : Params} {a : Attrs} {d : Decoder}

/-- An output RAM write at a slot below the capacity keeps the canonical form and the capacity. -/
theorem OutRam.write_bounded {α : Type} [DecidableEq α] {e : α} {m : List (Nat × α)} {bound i : Nat} (v : α)
    (h : OutRam.wf e m ∧ ∀ c ∈ m, c.1 < bound) (hi : i < bound) :
    OutRam.wf e (OutRam.write e m i v) ∧ ∀ c ∈ OutRam.write e m i v, c.1 < bound := by
  obtain ⟨hwf, hbound⟩ := h
  refine ⟨OutRam.write_wf hwf i v, fun c hc => ?_⟩
  rcases OutRam.mem_write hc with rfl | hc
  · exact hi
  · exact hbound c hc

/-- The cap keeps `BITS_LOADED` at most 10^12 (40_bit_sync.md R104). -/
theorem loadBit_bitsLoaded_le (b : Bool) (d : Decoder) : (loadBit b d).bitsLoaded.toNat ≤ capLimit := by
  rw [loadBit_bitsLoaded]
  split_ifs with h
  · decide
  · omega

theorem Decoder.Running.loadBit (h : d.Running p a) (b : Bool) : (loadBit b d).Running p a :=
  { h with
    consistent := { h.consistent with }
    bitsLoaded := loadBit_bitsLoaded_le b d }

/-- After the reset of a sync fire the decoder is COLLECTING its first word, whatever the sync test found before
(40_bit_sync.md R110); `d'` is `d` after the offset branch. -/
theorem Decoder.Running.syncReset {d' : Decoder} (ha : a.Valid) (h : d.Running p a)
    (hcount : 0 ≤ d'.syncCount.toInt) (hbits : d'.bitsLoaded = d.bitsLoaded) (hword : d'.outWord = d.outWord)
    (herr : d'.outErr = d.outErr) : (syncReset d').Running p a where
  consistent :=
    { fits := h.consistent.fits
      partialWord := ha.wordLen.1
      words := le_trans one_le_two ha.frameWords.1
      noSyncYet := ⟨fun hidle => SaveMode.noConfusion hidle,
        fun e => absurd hcount (by rw [show d'.syncCount = -1 from e]; decide)⟩
      idle := by simp
      full := by simp
      collecting := fun _ => ⟨le_refl 1, ha.frameWords.1⟩ }
  syncCount := le_trans (by decide) hcount
  bitsLoaded := hbits ▸ h.bitsLoaded
  frameValid := fun _ => ⟨rfl, rfl⟩
  outWord := hword ▸ h.outWord
  outErr := herr ▸ h.outErr

/-- The incremented sync count is not negative (10_state.md R41, 40_bit_sync.md R106). -/
theorem satIncSigned_nonneg {v : Word} (h : -1 ≤ v.toInt) : 0 ≤ (satIncSigned v).toInt := by
  rw [satIncSigned_toInt]
  split_ifs <;> omega

/-- A collected bit that completes no word (41_word_extractor.md R140). -/
theorem Decoder.Running.collectBit (ha : a.Valid) (h : d.Running p a) (hmode : d.saveMode = .collecting)
    (hword : d.dwBitCount + 1 ≠ a.wordLen) : ({ d with dwBitCount := d.dwBitCount + 1 } : Decoder).Running p a := by
  have hpart := h.consistent.partialWord
  have hlen := ha.wordLen.2
  have hsucc : (d.dwBitCount + 1).toNat = d.dwBitCount.toNat + 1 := by
    rw [BitVec.toNat_add]; simp; omega
  have hne : (d.dwBitCount + 1).toNat ≠ a.wordLen.toNat := fun e => hword (BitVec.eq_of_toNat_eq e)
  exact { h with
    consistent := { h.consistent with
      partialWord := by simp only; omega
      full := by simp [hmode] } }

/-- A word write and the FULL test after it (41_word_extractor.md R142, R143). -/
theorem Decoder.Running.writeWord (ha : a.Valid) (h : d.Running p a) (hmode : d.saveMode = .collecting) :
    (fullTest a (wordWrite a d)).Running p a := by
  obtain ⟨hpos, hlt⟩ := h.consistent.collecting hmode
  have hfits := h.consistent.fits
  have hmax := ha.frameWords.2
  have hslot : wordSlot d < p.maxFrameWords := by unfold wordSlot; omega
  have hsucc : (d.mfWordCount + 1).toNat = d.mfWordCount.toNat + 1 := by
    rw [BitVec.toNat_add]; simp; omega
  have hsync : d.syncCount ≠ -1 := fun e => by rw [h.consistent.noSyncYet.2 e] at hmode; cases hmode
  have hidle : (fullTest a (wordWrite a d)).saveMode ≠ .idle := by
    rw [fullTest_saveMode, wordWrite_saveMode, hmode]
    split_ifs <;> decide
  exact
    { consistent :=
        { fits := hfits
          partialWord := ha.wordLen.1
          words := by simp only [fullTest_mfWordCount, wordWrite_mfWordCount]; omega
          noSyncYet := ⟨fun hi => absurd hi hidle, fun e => absurd e hsync⟩
          idle := fun hi => absurd hi hidle
          full := by simp [hmode]
          collecting := fun hc => by
            have hne : (d.mfWordCount + 1).toNat ≠ a.frameWords.toNat := fun e => by
              rw [fullTest_saveMode, wordWrite_mfWordCount, if_pos (BitVec.eq_of_toNat_eq e)] at hc
              cases hc
            simp only [fullTest_mfWordCount, wordWrite_mfWordCount]
            omega }
      syncCount := h.syncCount
      bitsLoaded := h.bitsLoaded
      frameValid := by simp
      outWord := OutRam.write_bounded _ h.outWord hslot
      outErr := OutRam.write_bounded _ h.outErr hslot }

/-- Every bit step keeps it (40_bit_sync.md R101): the three sync fires end in `syncReset`, a collected bit or word
keeps the counts, and a bit outside a frame is only loaded. -/
theorem Decoder.Running.stepBit (ha : a.Valid) (h : d.Running p a) (base : Word) (b : Bool) :
    (stepBit a base b d).1.Running p a := by
  have hload := h.loadBit b
  rcases stepBit_cases a base b d with ⟨-, -, -, e⟩ | ⟨-, -, -, e⟩ | ⟨-, -, e⟩ | ⟨-, hmode, hword, e⟩ |
    ⟨-, hmode, -, e⟩ | ⟨-, -, e⟩ <;> rw [e]
  · exact hload.syncReset ha (satIncSigned_nonneg h.syncCount) rfl rfl rfl
  · exact hload.syncReset ha (satIncSigned_nonneg h.syncCount) rfl rfl rfl
  · exact hload.syncReset ha (le_refl 0) rfl rfl rfl
  · exact hload.collectBit ha hmode hword
  · exact Decoder.Running.writeWord (d := Machine.loadBit b d) ha hload hmode
  · exact hload

end Sys2Proof.Machine
end

section
/-! SUPPORT. Every shared operation keeps the invariant, where its side condition holds. -/

namespace Sys2Proof.Machine

variable {s t : State} {a : Attrs}

theorem State.Inv.running (h : s.Inv) (hn : s.needsSetup = false) (ha : s.attrs = some a) :
    s.dec.Running s.params a := by
  obtain ⟨a', ha', hconsistent⟩ := h.decoder hn
  obtain rfl : a' = a := Option.some.inj (ha'.symm.trans ha)
  exact { h with
    consistent := hconsistent
    frameValid := fun hv => (h.frameValid hv).2 }

theorem State.Inv.withDec (h : s.Inv) (hn : s.needsSetup = false) (ha : s.attrs = some a) {d : Decoder}
    (hd : d.Running s.params a) : (s.withDec d).Inv :=
  { h with
    decoder := fun _ => ⟨a, ha, hd.consistent⟩
    syncCount := hd.syncCount
    bitsLoaded := hd.bitsLoaded
    frameValid := fun hv => ⟨hn, hd.frameValid hv⟩
    outWord := hd.outWord
    outErr := hd.outErr }

theorem State.Inv.withPayload (h : s.Inv) {m : List Host.Cell}
    (hm : KeepsPayload s.params.maxPayloadBytes s.payload m) : (s.withPayload m).Inv :=
  { h with payload := ⟨hm.1 h.payload.1, hm.2 h.payload.2⟩ }

theorem State.Inv.complete (h : s.Inv) (c : ResultCode) : (s.complete c).Inv := { h with }

/-- The latch takes only fatal codes (60_exceptions.md R222). -/
theorem State.Inv.latchFatal (h : s.Inv) (c : ResultCode) : (s.latchFatal c).Inv :=
  { h with
    fatal := fun c' hc' => by
      rw [State.latchFatal_fatal] at hc'
      split_ifs at hc' with hc
      · exact Option.some.inj hc' ▸ hc
      · exact h.fatal c' hc' }

theorem State.Inv.raise (h : s.Inv) (c : ResultCode) : (s.raise c).Inv := (h.latchFatal c).complete c

theorem State.Inv.dropPacket (h : s.Inv) : s.dropPacket.Inv :=
  { h with packet := fun hr => Bool.noConfusion hr }

/-- With no packet loaded, the latched packet registers are free (43_commands.md R185 step 4). -/
theorem State.Inv.latchPacket (h : s.Inv) (hr : s.pktReady = false) : s.latchPacket.Inv :=
  { h with packet := fun hr' => absurd (hr.symm.trans hr') (by decide) }

/-- CONFIGURE's status writes take the decoder state out of use (43_commands.md R182). -/
theorem State.Inv.unconfigure (h : s.Inv) : s.unconfigure.Inv :=
  { h with
    attrs := fun _ ha => by cases ha
    decoder := fun hn => Bool.noConfusion hn
    frameValid := fun hv => Bool.noConfusion hv
    packet := fun hr => Bool.noConfusion hr }

/-- A valid set may be adopted while setup is still to come (43_commands.md R182). -/
theorem State.Inv.adopt (h : s.Inv) (hn : s.needsSetup = true) (ha : a.Valid) : (s.adopt a).Inv :=
  { h with
    attrs := fun _ e => Option.some.inj e ▸ ha
    decoder := fun hn' => absurd (hn.symm.trans hn') (by decide) }

/-- The setup values of 10_state.md R52 are consistent with every set whose frames fit. -/
theorem setupValue_consistent {p : Params} (ha : a.Valid) (hfit : a.frameWords.toNat ≤ p.maxFrameWords) :
    Decoder.setupValue.Consistent p a where
  fits := hfit
  partialWord := ha.wordLen.1
  words := Nat.zero_le _
  noSyncYet := by decide
  idle := fun _ => rfl
  full := fun hm => SaveMode.noConfusion hm
  collecting := fun hm => SaveMode.noConfusion hm

/-- The bounds of `SYNC_COUNT` and `BITS_LOADED` hold of the setup values (10_state.md R52). -/
theorem setupValue_bounds :
    -1 ≤ Decoder.setupValue.syncCount.toInt ∧ Decoder.setupValue.bitsLoaded.toNat ≤ capLimit := by
  decide

/-- An output RAM of setup values alone is canonical and within every capacity (10_state.md R47, R52). -/
theorem OutRam.wf_nil {α : Type} (e : α) (bound : Nat) :
    OutRam.wf e ([] : List (Nat × α)) ∧ ∀ c ∈ ([] : List (Nat × α)), c.1 < bound :=
  ⟨⟨.nil, fun _ hc => absurd hc List.not_mem_nil⟩, fun _ hc => absurd hc List.not_mem_nil⟩

theorem State.Inv.applySetup (h : s.Inv) (ha : s.attrs = some a)
    (hfit : a.frameWords.toNat ≤ s.params.maxFrameWords) : s.applySetup.Inv :=
  { h with
    decoder := fun _ => ⟨a, ha, setupValue_consistent (h.attrs a ha) hfit⟩
    syncCount := setupValue_bounds.1
    bitsLoaded := setupValue_bounds.2
    frameValid := fun hv => Bool.noConfusion hv
    packet := fun hr => Bool.noConfusion hr
    fatal := fun _ hc => by cases hc
    outWord := OutRam.wf_nil _ _
    outErr := OutRam.wf_nil _ _ }

/-- A packet of a passing length may be started once setup is done (43_commands.md R185 step 10). -/
theorem State.Inv.startPacket (h : s.Inv) (hn : s.needsSetup = false)
    (hlen : lengthRefusal s.params s.pkt.len.toNat = none) : s.startPacket.Inv :=
  { h with
    decoder := fun _ => by
      obtain ⟨a, ha, hd⟩ := h.decoder hn
      exact ⟨a, ha, { hd with }⟩
    packet := fun _ => ⟨hn, hlen⟩ }

theorem State.Inv.runPacket (h : s.Inv) (hn : s.needsSetup = false) (ha : s.attrs = some a) :
    (runPacket a s).Inv :=
  (h.withDec hn ha (run_induct (P := fun d => d.Running s.params a)
    (fun b _ hd => hd.stepBit (h.attrs a ha) s.pkt.baseTime b) s.params s.payload (h.running hn ha))).complete _

theorem State.Inv.feedStep (h : s.Inv) (hn : s.needsSetup = false) (ha : s.attrs = some a) (b : Bool) :
    (feedStep a b s).Inv :=
  (h.withDec hn ha ((h.running hn ha).stepBit (h.attrs a ha) s.pkt.baseTime b)).complete _

end Sys2Proof.Machine
end

section
/-! SUPPORT. Every command keeps the invariant (43_commands.md R181 to R189). -/

namespace Sys2Proof.Machine

variable {s t : State} {a : Attrs}

theorem execConfigure_inv (hi : s.Inv) (h : execConfigure s = .next t) : t.Inv := by
  rcases execConfigure_next h with ⟨c, rfl⟩ | ⟨a, hv, rfl⟩
  · exact hi.unconfigure.raise c
  · exact (hi.unconfigure.adopt rfl (validateAttrs_valid hv)).complete .ok

theorem execSetup_inv (hi : s.Inv) (h : execSetup s = .next t) : t.Inv := by
  rcases execSetup_next h with ⟨c, rfl⟩ | ⟨a, ha, hfit, rfl⟩
  · exact hi.dropPacket.raise c
  · exact (hi.dropPacket.applySetup ha hfit).complete .ok

theorem State.Inv.decodeLatched (h : s.Inv) (hn : s.needsSetup = false) (ha : s.attrs = some a)
    (hlen : lengthRefusal s.params s.pkt.len.toNat = none) : (decodeLatched a s).Inv := by
  obtain ⟨hmin, hmax⟩ := lengthRefusal_eq_none.1 hlen
  rcases decodeLatched_cases a s with ⟨c, e⟩ | ⟨m, hm, e⟩ <;> rw [e]
  · exact h.raise c
  · have hloaded := h.withPayload (byteSwapFixup_keeps hmax hmin hm)
    exact (hloaded.startPacket hn hlen).runPacket hn ha

theorem State.Inv.decodeChecked (h : s.Inv) (ha : s.attrs = some a) : (decodeChecked a s).Inv := by
  rcases decodeChecked_cases a s with ⟨c, e⟩ | ⟨c, e⟩ | ⟨u, hlen, hu, e⟩ <;> rw [e]
  · exact h.complete c
  · exact h.raise c
  · rcases setupIfNeeded_ok hu with ⟨hn, rfl⟩ | ⟨hfit, rfl⟩
    · exact h.decodeLatched hn ha hlen
    · exact (h.applySetup ha hfit).decodeLatched rfl ha hlen

theorem execDecodeFirst_inv (hi : s.Inv) (h : execDecodeFirst s = .next t) : t.Inv := by
  rcases execDecodeFirst_next h with ⟨c, rfl⟩ | ⟨c, rfl⟩ | ⟨a, ha, rfl⟩
  · exact hi.complete c
  · exact hi.dropPacket.raise c
  · exact (hi.dropPacket.latchPacket rfl).decodeChecked ha

/-- A loaded packet means that setup is done (43_commands.md R186). -/
theorem execDecodeNext_inv (hi : s.Inv) (h : execDecodeNext s = .next t) : t.Inv := by
  rcases execDecodeNext_next h with ⟨c, rfl⟩ | ⟨c, rfl⟩ | ⟨a, ha, hr, rfl⟩
  · exact hi.complete c
  · exact hi.raise c
  · exact hi.runPacket (hi.packet hr).1 ha

theorem execFeedBit_inv {b : Bool} (hi : s.Inv) (h : execFeedBit b s = .next t) : t.Inv := by
  rcases execFeedBit_next h with ⟨c, rfl⟩ | ⟨a, hn, ha, rfl⟩
  · exact hi.complete c
  · exact hi.feedStep hn ha b

/-- A standalone swap keeps the invariant when, on a passing length, its swap stays below the capacity. -/
theorem State.Inv.swapCommand {swap : Params → Nat → List Host.Cell → Except ResultCode (List Host.Cell)}
    (hswap : ∀ {p : Params} {len : Nat} {m m' : List Host.Cell}, p.csdwBytes ≤ len → len ≤ p.maxPayloadBytes →
      swap p len m = .ok m' → KeepsPayload p.maxPayloadBytes m m')
    (h : s.Inv) : (swapCommand swap s).Inv := by
  rcases swapCommand_cases swap s with ⟨c, -, e⟩ | ⟨hlen, ⟨c, -, e⟩ | ⟨m, hm, e⟩⟩ <;> rw [e]
  · exact h.complete c
  · exact h.raise c
  · obtain ⟨hmin, hmax⟩ := lengthRefusal_eq_none.1 hlen
    exact (h.withPayload (hswap hmin hmax hm)).complete .ok

theorem swap16_keeps {p : Params} {len : Nat} {m m' : List Host.Cell} (hmin : p.csdwBytes ≤ len)
    (hmax : len ≤ p.maxPayloadBytes) (h : swap16 p len m = .ok m') : KeepsPayload p.maxPayloadBytes m m' := by
  rcases swap16_cases p len m with ⟨e, -⟩ | ⟨e, -⟩ <;> rw [e] at h <;> cases h
  exact keepsPayload_swapPairs _ (by omega)

theorem swap32_keeps {p : Params} {len : Nat} {m m' : List Host.Cell} (hmin : p.csdwBytes ≤ len)
    (hmax : len ≤ p.maxPayloadBytes) (h : swap32 p len m = .ok m') : KeepsPayload p.maxPayloadBytes m m' := by
  rcases swap32_cases p len m with ⟨e, -⟩ | ⟨e, -⟩ <;> rw [e] at h <;> cases h
  exact keepsPayload_swapQuads _ (by omega)

theorem exec_inv {i : Instr} (hi : s.Inv) (h : exec i s = .next t) : t.Inv := by
  cases i with
  | nop => exact execNop_next h ▸ hi.complete .ok
  | configure => exact execConfigure_inv hi h
  | setup => exact execSetup_inv hi h
  | decodeFirst => exact execDecodeFirst_inv hi h
  | decodeNext => exact execDecodeNext_inv hi h
  | feedBit b => exact execFeedBit_inv hi h
  | swapBytes => cases h; exact hi.swapCommand swap16_keeps
  | swapShorts => cases h; exact hi.swapCommand swap32_keeps

end Sys2Proof.Machine
end

section
/-! SUPPORT. Every host access keeps the invariant (20_memory.md R61, R62, R64). -/

namespace Sys2Proof.Machine

variable {s t : State}

/-- A register write reaches the host's registers and the pending word only. -/
theorem State.Inv.writeReg (h : s.Inv) (v : Word) (r : Reg) : (writeReg s v r).Inv := by
  cases r <;> exact { h with }

/-- A payload access in the window lies below `MAX_PAYLOAD_BYTES` (20_memory.md R62). -/
theorem payload_access_fits {p : Params} {off size b : Nat} (hok : accessOk p off size = true)
    (hr : regionAt p off = .payload b) : b + size ≤ p.maxPayloadBytes := by
  unfold regionAt at hr
  unfold accessOk at hok
  simp only [Bool.and_eq_true, Bool.or_eq_true, decide_eq_true_eq] at hok
  obtain ⟨-, hfits⟩ := hok
  split_ifs at hr
  · split at hr <;> cases hr
  · have hb := Region.payload.inj hr
    omega

theorem keepsPayload_writeLE {bound b n : Nat} (m : List Host.Cell) (v : Word) (h : b + n ≤ bound) :
    KeepsPayload bound m (Memory.writeLE m b v n) := by
  refine ⟨fun hwf => Memory.writeLE_wf hwf b v n, fun hm c hc => ?_⟩
  rcases Memory.mem_writeLE hc with ⟨-, hlt⟩ | hc
  · omega
  · exact hm c hc

theorem State.Inv.windowWrite (h : s.Inv) {off size : Nat} (hok : accessOk s.params off size = true) (v : Word) :
    (windowWrite s off size v).Inv := by
  unfold Machine.windowWrite
  rcases hr : regionAt s.params off with r | i | i | b | _
  · exact h.writeReg v r
  · exact h
  · exact h
  · exact h.withPayload (keepsPayload_writeLE _ v (payload_access_fits hok hr))
  · exact h

theorem hostAccess_inv {acc : Access} (hi : s.Inv) (h : hostAccess acc s = .next t) : t.Inv := by
  rcases hostAccess_next h with ⟨off, size, -, -, rfl⟩ | ⟨off, size, -, rfl⟩ | ⟨off, size, v, -, -, hok, -, rfl⟩
  · exact { hi with }
  · exact { hi with }
  · exact hi.windowWrite hok v

end Sys2Proof.Machine
end

section
/-! PROOFS. The invariant of 10_state.md R53 along every step. -/

namespace Sys2Proof.Machine

/-- Taking a turn off the list touches nothing the invariant speaks of (log 2). -/
theorem State.Inv.takeTurn {s : State} (h : s.Inv) (rest : List Turn) : ({ s with turns := rest } : State).Inv :=
  { h with }

/-- Settles O46, by what a step can be: a host access, an idle block, an illegal word or a command. -/
theorem everyStepKeepsTheInvariant : Obligations.EveryStepKeepsTheInvariant := by
  intro s t hi h
  obtain ⟨rest, ⟨acc, hhost⟩ | rfl | rfl | ⟨i, hexec⟩⟩ := step_next h
  · exact hostAccess_inv (hi.takeTurn rest) hhost
  · exact hi.takeTurn rest
  · exact (hi.takeTurn rest).complete .illegalCommand
  · exact exec_inv (hi.takeTurn rest) hexec

end Sys2Proof.Machine
end

section
/-! PROOFS. Which commands write which registers. -/

namespace Sys2Proof.Machine

/-- Settles O44: each command's frame equation names every field the command can write. -/
theorem eachRegisterGroupHasItsWriters : Obligations.EachRegisterGroupHasItsWriters := by
  intro i s t h
  cases i with
  | nop => rw [execNop_frame h]; simp
  | configure => rw [execConfigure_frame h]; simp
  | setup => rw [execSetup_frame h]; simp
  | decodeFirst => rw [execDecodeFirst_frame h]; simp
  | decodeNext => rw [execDecodeNext_frame h]; simp
  | feedBit b => rw [execFeedBit_frame h]; simp
  | swapBytes => rw [execSwapBytes_frame h]; simp
  | swapShorts => rw [execSwapShorts_frame h]; simp

end Sys2Proof.Machine
end

section
/-! PROOFS. The frame length of a latched set (10_state.md R24). -/

namespace Sys2Proof.Machine

variable {r : AttrRegs}

/-- In range, all of CONFIGURE's checks but LSB_FIRST pass (43_commands.md R182). -/
theorem validateAttrs_ok_of_inRange (h : r.InRange) (hlsb : lsbFirstOf r.byteOrder = false) :
    ∃ a, validateAttrs r = .ok a ∧ a.frameBits = frameBitsOf r := by
  have hword : ¬ (r.wordLen.toNat < 1 ∨ 64 < r.wordLen.toNat) := by have := h.wordLen; omega
  have hframe : ¬ (r.frameWords.toNat < 2 ∨ 4294967295 < r.frameWords.toNat) := by have := h.frameWords; omega
  have hsync : ¬ (r.syncLen.toNat < 1 ∨ 64 < r.syncLen.toNat) := by have := h.syncLen; omega
  have hmask := (maskInLength_iff r.syncMask h.syncLen.2).2 h.mask
  have hpattern := (patternInMask_iff r.syncPattern r.syncMask).2 h.pattern
  have hmin : r.minSync.getLsbD 63 = false := by
    have hmsb := BitVec.msb_eq_false_iff_two_mul_lt.2 (show 2 * r.minSync.toNat < 2 ^ 64 by have := h.minSync; omega)
    simpa [BitVec.msb_eq_getLsbD_last] using hmsb
  obtain ⟨hparity, hmode⟩ := h.parity
  have hreserved : parityReserved r.parity = 0 :=
    BitVec.eq_of_toNat_eq (by simp [parityReserved, Nat.shiftRight_eq_div_pow]; omega)
  have horder : byteOrderReserved r.byteOrder = 0 :=
    BitVec.eq_of_toNat_eq (by have := h.byteOrder; simp [byteOrderReserved, Nat.shiftRight_eq_div_pow]; omega)
  obtain ⟨m, hm⟩ : ∃ m, parityModeOf r.parity = some m := by
    rw [parityModeOf_eq]
    split_ifs
    · exact ⟨_, rfl⟩
    · exact ⟨_, rfl⟩
    · exact ⟨_, rfl⟩
    · omega
  unfold validateAttrs
  rw [if_neg hword, if_neg hframe, if_neg hsync, if_neg (not_not.2 hmask), if_neg (not_not.2 hpattern),
    if_neg (Bool.not_eq_true _ ▸ hmin), if_neg (not_not.2 hreserved), hm]
  simp [horder, hlsb]

/-- In range, the derived length does not overflow (10_state.md R24, 43_commands.md R182). -/
theorem frameBitsOf_toNat (h : r.InRange) :
    (frameBitsOf r).toNat =
      if r.frameBits.toNat ≠ 0 then r.frameBits.toNat
      else r.wordLen.toNat * (r.frameWords.toNat - 1) + r.syncLen.toNat := by
  have hzero : r.frameBits ≠ 0 ↔ r.frameBits.toNat ≠ 0 := not_congr BitVec.toNat_eq
  have hprod : r.wordLen.toNat * (r.frameWords.toNat - 1) ≤ 64 * 2 ^ 32 :=
    Nat.mul_le_mul h.wordLen.2 (by have := h.frameWords.2; omega)
  have hlen := h.syncLen.2
  unfold frameBitsOf
  simp only [hzero]
  split_ifs
  · rfl
  · rw [BitVec.toNat_ofNat, Nat.mod_eq_of_lt (by omega)]

/-- Settles O8: the set that a passing CONFIGURE adopts has the frame length of `frameBitsOf`. -/
theorem frameLengthIsGivenOrDerived : Obligations.FrameLengthIsGivenOrDerived := by
  intro s hrange hlsb
  obtain ⟨a, hok, hbits⟩ := validateAttrs_ok_of_inRange hrange hlsb
  have hexec : exec .configure s = .next ((s.unconfigure.adopt a).complete .ok) := by
    show execConfigure s = _
    simp [execConfigure, hok]
  exact ⟨_, a, hexec, rfl, by rw [hbits, frameBitsOf_toNat hrange]⟩

end Sys2Proof.Machine
end

section
/-! PROOFS. `TEST_WORD` holds the last 64 bits fed (10_state.md R35). -/

namespace Sys2Proof.Machine

/-- Settles O29, by induction on the bits: the first bit fed moves up by one place for each bit after it
(40_bit_sync.md R102). -/
theorem testWordHoldsTheLastBitsFed : Obligations.TestWordHoldsTheLastBitsFed := by
  intro a base bs
  induction bs with
  | nil => intro d k _; simp [feedAll]
  | cons b bs ih =>
    intro d k hk
    rw [feedAll, ih _ k hk, stepBit_testWord, List.length_cons]
    rcases lt_trichotomy k bs.length with hlt | heq | hgt
    · have hidx : bs.length + 1 - 1 - k = (bs.length - 1 - k) + 1 := by omega
      rw [if_pos hlt, if_pos (by omega), hidx, List.getD_cons_succ]
    · subst heq
      simp
    · have hpos : k - bs.length = (k - (bs.length + 1)) + 1 := by omega
      rw [if_neg (by omega), if_neg (by omega), hpos, BitVec.getLsbD_shiftConcat]
      simp
      omega

end Sys2Proof.Machine
end

section
/-! PROOFS. The power-on state: its values, and that it meets both relations that every step keeps. -/

namespace Sys2Proof.Machine

/-- Power-on needs setup, holds no set and no packet, and its RAMs are empty (10_state.md R51). -/
theorem powerOn_inv {p : Params} (hp : p.wf = true) : (State.powerOn p).Inv where
  params := hp
  attrs := fun _ ha => by cases ha
  decoder := fun hn => Bool.noConfusion hn
  syncCount := setupValue_bounds.1
  bitsLoaded := setupValue_bounds.2
  frameValid := fun hv => Bool.noConfusion hv
  packet := fun hr => Bool.noConfusion hr
  fatal := fun _ hc => by cases hc
  outWord := OutRam.wf_nil _ _
  outErr := OutRam.wf_nil _ _
  payload := ⟨.nil, fun _ hc => absurd hc List.not_mem_nil⟩

/-- Settles O47; the default parameters are legal. -/
theorem powerOnMeetsTheInvariant : Obligations.PowerOnMeetsTheInvariant :=
  ⟨fun _ hp => powerOn_inv hp, powerOn_inv (by decide)⟩

/-- Until setup is done no count is related to a frame. -/
theorem powerOn_frameCounted (p : Params) : (State.powerOn p).FrameCounted :=
  fun _ hn _ => Bool.noConfusion hn

/-- Settles O59. -/
theorem powerOnMeetsTheFrameCount : Obligations.PowerOnMeetsTheFrameCount :=
  ⟨powerOn_frameCounted, powerOn_frameCounted Params.standard⟩

/-- Settles O57: every register by its value in the power-on state, `STATUS` by its one set bit, and the two RAMs by
what an empty list holds. -/
theorem powerOnValues : Obligations.PowerOnValues := by
  have hout : ∀ i, State.reset.dec.wordAt i = 0 ∧ State.reset.dec.errAt i = false := fun _ => ⟨rfl, rfl⟩
  have hstatus : State.reset.statusWord = 0x4 := by decide
  have hpayload : ∀ b, cellAt State.reset.payload b = none := fun _ => rfl
  exact ⟨rfl, rfl, rfl, rfl, rfl, rfl, rfl, rfl, rfl, rfl, rfl, rfl, rfl, rfl, rfl, rfl, rfl, hout, rfl,
    hstatus, hpayload⟩

end Sys2Proof.Machine
end

section
/-! PROOFS. The command write, and the fields of `STATUS`. -/

namespace Sys2Proof.Machine

/-- `CMD` is at offset 0 of every window (20_memory.md R61). -/
theorem regionAt_cmd (p : Params) : regionAt p 0x000 = .register .cmd := by
  have hreg : regAt 0x000 = some .cmd := by decide
  simp [regionAt, hreg]

/-- An aligned 8-byte access below the payload RAM is accepted (20_memory.md R62). -/
theorem accessOk_of_aligned_word {p : Params} {off : Nat} (halign : off % 8 = 0) (hlow : off < 0x100000) :
    accessOk p off 8 = true := by
  simp [accessOk, halign, hlow]

/-- Settles O52. -/
theorem commandWriteSetsBusy : Obligations.CommandWriteSetsBusy := by
  intro s c hidle
  have hok : accessOk s.params 0x000 8 = true := accessOk_of_aligned_word (by decide) (by decide)
  have hwrite : windowWrite s 0x000 8 c = { s with pendingCmd := some c } := by
    simp [windowWrite, regionAt_cmd, writeReg]
  refine ⟨?_, rfl⟩
  simp [hostAccess, hok, hidle, hwrite, windowBytes]

/-- The six flags of `STATUS` at bits 0 to 5 (10_state.md R45). -/
theorem statusWord_flags (s : State) :
    s.statusWord.getLsbD 0 = s.busy ∧ s.statusWord.getLsbD 1 = s.attrs.isSome ∧
    s.statusWord.getLsbD 2 = s.needsSetup ∧ s.statusWord.getLsbD 3 = s.fatal.isSome ∧
    s.statusWord.getLsbD 4 = s.dec.frameValid ∧ s.statusWord.getLsbD 5 = s.pktReady := by
  simp only [State.statusWord, BitVec.getLsbD_append, BitVec.getLsbD_ofBool]
  simp

/-- The fields of `STATUS` above the flags, and the bits that read 0 (10_state.md R45). -/
theorem statusWord_fields (s : State) :
    s.statusWord.extractLsb' 6 2 = 0 ∧ s.statusWord.extractLsb' 8 8 = s.result.number ∧
    s.statusWord.extractLsb' 16 8 = s.fatalNumber ∧ s.statusWord.extractLsb' 24 40 = 0 := by
  unfold State.statusWord
  refine ⟨?_, ?_, ?_, ?_⟩
  · simp (disch := omega) only [BitVec.extractLsb'_append_eq_of_le, BitVec.extractLsb'_append_eq_of_add_le]
    rfl
  · simp (disch := omega) only [BitVec.extractLsb'_append_eq_of_le, BitVec.extractLsb'_append_eq_of_add_le]
    exact BitVec.extractLsb'_eq_self
  · simp (disch := omega) only [BitVec.extractLsb'_append_eq_of_le, BitVec.extractLsb'_append_eq_of_add_le]
    exact BitVec.extractLsb'_eq_self
  · simp (disch := omega) only [BitVec.extractLsb'_append_eq_of_le]
    rfl

theorem fatalNumber_of_none {s : State} (h : s.fatal = none) : s.fatalNumber = 0 := by
  simp [State.fatalNumber, h]

theorem fatalNumber_of_some {s : State} {c : ResultCode} (h : s.fatal = some c) : s.fatalNumber = c.number := by
  simp [State.fatalNumber, h]

/-- Settles O56; `BUSY` is that a word is pending (log 3). -/
theorem statusFieldsAreAtTheirBits : Obligations.StatusFieldsAreAtTheirBits := by
  refine ⟨fun s => ?_, ⟨rfl, rfl, rfl, rfl, rfl, rfl, rfl, rfl, rfl⟩, rfl, rfl, rfl⟩
  obtain ⟨hbusy, hattr, hneeds, hfatal, hframe, hready⟩ := statusWord_flags s
  obtain ⟨hlow, hresult, hcode, hhigh⟩ := statusWord_fields s
  exact ⟨hbusy, hattr, hneeds, hfatal, hframe, hready, hlow, hresult, fun h => hcode.trans (fatalNumber_of_none h),
    fun _ h => hcode.trans (fatalNumber_of_some h), hhigh⟩

end Sys2Proof.Machine
end

section
/-! SUPPORT. The address map and the access rules of the window, and what an access of each region answers
(20_memory.md R60 to R64). -/

namespace Sys2Proof.Machine

variable {s t : State} {p : Params} {off size : Nat}

/-- The accesses the window accepts, as numbers (20_memory.md R62; log 7). -/
theorem accessOk_iff :
    accessOk p off size = true ↔
      (size = 1 ∨ size = 2 ∨ size = 4 ∨ size = 8) ∧ off % size = 0 ∧ (off < 0x030000 → size = 8) ∧
        (0x100000 ≤ off → off - 0x100000 < p.maxPayloadBytes →
          off - 0x100000 + size ≤ p.maxPayloadBytes) := by
  simp only [accessOk, Bool.and_eq_true, Bool.or_eq_true, decide_eq_true_eq, and_assoc]
  refine and_congr_right' (and_congr_right' (and_congr ?_ ?_)) <;> omega

/-- An offset past the window faults (20_memory.md R60; log 8). -/
theorem hostAccess_outside (s : State) (size : Nat) (v : Word) (h : 0x200000 ≤ off) :
    hostAccess (.read off size) s = .fault .outsideWindow ∧
    hostAccess (.write off size v) s = .fault .outsideWindow :=
  ⟨if_pos h, if_pos h⟩

/-- An access that the window does not accept is refused, busy or not (20_memory.md R62). -/
theorem hostAccess_malformed (v : Word) (hin : off < 0x200000) (hbad : accessOk s.params off size = false) :
    hostAccess (.read off size) s = .refused .hostAccessShape ∧
    hostAccess (.write off size v) s = .refused .hostAccessShape := by
  have hwindow : ¬ windowBytes ≤ off := Nat.not_le.2 hin
  simp [hostAccess, hwindow, hbad]

/-- What the idle block's window answers an access it accepts (20_memory.md R62, R64). -/
theorem hostAccess_idle (v : Word) (hidle : s.busy = false) (hin : off < 0x200000)
    (hok : accessOk s.params off size = true) :
    hostAccess (.read off size) s = .next { s with hostData := windowRead s off size } ∧
    hostAccess (.write off size v) s = .next (windowWrite s off size v) := by
  have hwindow : ¬ windowBytes ≤ off := Nat.not_le.2 hin
  simp [hostAccess, hwindow, hok, hidle, hostReceive]

/-- A read that is answered was accepted (20_memory.md R62). -/
theorem accessOk_of_read_next (hin : off < 0x200000) (h : hostAccess (.read off size) s = .next t) :
    accessOk s.params off size = true := by
  by_contra hbad
  rw [(hostAccess_malformed 0 hin (Bool.eq_false_iff.2 hbad)).1] at h
  cases h

/-! #### The map, region by region (20_memory.md R61) -/

/-- The registers fill the words from 0x000 to 0x0E8. -/
theorem Reg.offset_bounds (r : Reg) : r.offset < 0x0F0 ∧ r.offset % 8 = 0 := by
  cases r <;> decide

/-- Every word of the register rows has its register. -/
theorem exists_reg_offset_eq (hlow : off < 0x0F0) (halign : off % 8 = 0) : ∃ r : Reg, r.offset = off := by
  have hrows : ∀ k : Fin 30, ∃ r ∈ allRegs, r.offset = 8 * k.val := by decide
  obtain ⟨r, -, hr⟩ := hrows ⟨off / 8, by omega⟩
  exact ⟨r, by simp only at hr; omega⟩

theorem regionAt_offset (p : Params) (r : Reg) : regionAt p r.offset = .register r := by
  have hlow : r.offset < 0x010000 := by have := r.offset_bounds; omega
  have hreg : regAt r.offset = some r := by cases r <;> rfl
  simp [regionAt, hlow, hreg]

theorem regionAt_above_registers (p : Params) (hmin : 0x0F0 ≤ off) (hmax : off ≤ 0x00FFFF) :
    regionAt p off = .reserved := by
  have hlow : off < 0x010000 := by omega
  have hnone : regAt off = none := List.find?_eq_none.2 fun r _ => by
    have := r.offset_bounds
    simp only [decide_eq_true_eq]
    omega
  simp [regionAt, hlow, hnone]

theorem regionAt_outWord (p : Params) {i : Nat} (hi : i < 8192) :
    regionAt p (0x010000 + 8 * i) = if i < p.maxFrameWords then .outWord i else .reserved := by
  have hmin : ¬ 0x010000 + 8 * i < 0x010000 := by omega
  have hmax : 0x010000 + 8 * i < 0x020000 := by omega
  simp [regionAt, hmin, hmax]

theorem regionAt_outErr (p : Params) {i : Nat} (hi : i < 8192) :
    regionAt p (0x020000 + 8 * i) = if i < p.maxFrameWords then .outErr i else .reserved := by
  have hlow : ¬ 0x020000 + 8 * i < 0x010000 := by omega
  have hmin : ¬ 0x020000 + 8 * i < 0x020000 := by omega
  have hmax : 0x020000 + 8 * i < 0x030000 := by omega
  simp [regionAt, hlow, hmin, hmax]

theorem regionAt_above_outputs (p : Params) (hmin : 0x030000 ≤ off) (hmax : off ≤ 0x0FFFFF) :
    regionAt p off = .reserved := by
  unfold regionAt
  rw [if_neg (by omega), if_neg (by omega), if_neg (by omega), if_pos (by omega)]

theorem regionAt_payload (p : Params) (b : Nat) :
    regionAt p (0x100000 + b) = if b < p.maxPayloadBytes then .payload b else .reserved := by
  unfold regionAt
  rw [if_neg (by omega), if_neg (by omega), if_neg (by omega), if_neg (by omega), Nat.add_sub_cancel_left]

/-! #### What the idle block answers in each region -/

theorem hostAccess_register (hidle : s.busy = false) (r : Reg) (v : Word) :
    hostAccess (.read r.offset 8) s = .next { s with hostData := readReg s r } ∧
    hostAccess (.write r.offset 8 v) s = .next (writeReg s v r) := by
  obtain ⟨hlow, halign⟩ := r.offset_bounds
  have hok : accessOk s.params r.offset 8 = true := accessOk_of_aligned_word halign (by omega)
  simpa [windowRead, windowWrite, regionAt_offset] using hostAccess_idle v hidle (by omega) hok

theorem hostAccess_reserved (v : Word) (hidle : s.busy = false) (hin : off < 0x200000)
    (hok : accessOk s.params off size = true) (hr : regionAt s.params off = .reserved) :
    hostAccess (.read off size) s = .next { s with hostData := 0 } ∧
    hostAccess (.write off size v) s = .next s := by
  simpa [windowRead, windowWrite, hr] using hostAccess_idle v hidle hin hok

theorem hostAccess_outWord (v : Word) (hidle : s.busy = false) {i : Nat} (hi : i < s.params.maxFrameWords)
    (hrow : i < 8192) :
    hostAccess (.read (0x010000 + 8 * i) 8) s = .next { s with hostData := s.dec.wordAt i } ∧
    hostAccess (.write (0x010000 + 8 * i) 8 v) s = .next s := by
  have hok : accessOk s.params (0x010000 + 8 * i) 8 = true := accessOk_of_aligned_word (by omega) (by omega)
  simpa [windowRead, windowWrite, regionAt_outWord s.params hrow, hi] using hostAccess_idle v hidle (by omega) hok

theorem hostAccess_outErr (v : Word) (hidle : s.busy = false) {i : Nat} (hi : i < s.params.maxFrameWords)
    (hrow : i < 8192) :
    hostAccess (.read (0x020000 + 8 * i) 8) s = .next { s with hostData := if s.dec.errAt i then 1 else 0 } ∧
    hostAccess (.write (0x020000 + 8 * i) 8 v) s = .next s := by
  have hok : accessOk s.params (0x020000 + 8 * i) 8 = true := accessOk_of_aligned_word (by omega) (by omega)
  have hflag : (BitVec.ofBool (s.dec.errAt i)).setWidth 64 = if s.dec.errAt i then (1 : Word) else 0 := by
    cases s.dec.errAt i <;> rfl
  have h := hostAccess_idle v hidle (by omega) hok
  simp only [windowRead, windowWrite, regionAt_outErr s.params hrow, if_pos hi, hflag] at h
  exact h

theorem hostAccess_payload (v : Word) (hidle : s.busy = false) {b : Nat} (hb : b < s.params.maxPayloadBytes)
    (hin : b < 0x100000) (hok : accessOk s.params (0x100000 + b) size = true) :
    hostAccess (.read (0x100000 + b) size) s = .next { s with hostData := Memory.readLE s.payload b size } ∧
    hostAccess (.write (0x100000 + b) size v) s = .next (s.withPayload (Memory.writeLE s.payload b v size)) := by
  simpa [windowRead, windowWrite, regionAt_payload, hb] using hostAccess_idle v hidle (by omega) hok

end Sys2Proof.Machine
end

section
/-! PROOFS. Little-endian accesses of the payload RAM (20_memory.md R63, R65). -/

namespace Sys2Proof.Machine

variable {n : Nat}

theorem Memory.readLE_lt (m : List Host.Cell) (a n : Nat) : (Memory.readLE m a n).toNat < 2 ^ (8 * n) :=
  Nat.lt_pow_two_of_testBit _ fun i hi => by
    rw [BitVec.testBit_toNat, Memory.getLsbD_readLE, decide_eq_false (by omega), Bool.false_and, Bool.false_and]

/-- Byte k of a read is the byte at the k-th address (20_memory.md R63). -/
theorem Memory.extractLsb'_readLE (m : List Host.Cell) (a : Nat) {k : Nat} (hn : n ≤ 8) (hk : k < n) :
    (Memory.readLE m a n).extractLsb' (8 * k) 8 = Memory.read m (a + k) := by
  refine BitVec.eq_of_getLsbD_eq fun i hi => ?_
  have haddr : (8 * k + i) / 8 = k := by omega
  have hbit : (8 * k + i) % 8 = i := by omega
  have hin : 8 * k + i < 8 * n ∧ 8 * k + i < 64 := by omega
  rw [BitVec.getLsbD_extractLsb', Memory.getLsbD_readLE, haddr, hbit]
  simp [hi, hin]

/-- A read of the bytes just written gives the low bytes of the value (20_memory.md R63). -/
theorem Memory.readLE_writeLE (m : List Host.Cell) (a : Nat) (v : Word) (hn : n ≤ 8) :
    (Memory.readLE (Memory.writeLE m a v n) a n).toNat = v.toNat % 2 ^ (8 * n) := by
  refine Nat.eq_of_testBit_eq fun i => ?_
  rw [Nat.testBit_mod_two_pow, BitVec.testBit_toNat, BitVec.testBit_toNat, Memory.getLsbD_readLE,
    Memory.read_writeLE]
  by_cases hi : i < 8 * n
  · have hlane : i / 8 < n := by omega
    have hbit : 8 * (i / 8) + i % 8 = i := by omega
    have hword : i < 64 := by omega
    have hmod : i % 8 < 8 := by omega
    simp [hi, hlane, hbit, hword, hmod]
  · simp [hi]

/-- Settles O49: the access is the payload region's, so a read is `Memory.readLE` and a write `Memory.writeLE`, whose
byte laws give the rest. -/
theorem payloadAccessesAreLittleEndian : Obligations.PayloadAccessesAreLittleEndian := by
  intro s b size v hidle hsize halign hfits hin
  have hpos : 0 < size := by omega
  have hle : size ≤ 8 := by omega
  have hb : b < s.params.maxPayloadBytes := by omega
  have hok : accessOk s.params (0x100000 + b) size = true := by
    refine accessOk_iff.2 ⟨hsize, ?_, by omega, by omega⟩
    rcases hsize with rfl | rfl | rfl | rfl <;> omega
  obtain ⟨hread, hwrite⟩ := hostAccess_payload v hidle hb hin hok
  refine ⟨⟨_, hread, fun k => Memory.extractLsb'_readLE s.payload b hle, Memory.readLE_lt _ _ _⟩, ?_⟩
  obtain ⟨hback, -⟩ :=
    hostAccess_payload (s := s.withPayload (Memory.writeLE s.payload b v size)) v hidle hb hin hok
  refine ⟨_, _, hwrite, rfl, fun k hk => ?_, fun a ha => ?_, hback, Memory.readLE_writeLE _ _ _ hle⟩
  · rw [State.withPayload_payload, Memory.read_writeLE, if_pos (by omega), Nat.add_sub_cancel_left]
  · rw [State.withPayload_payload, Memory.read_writeLE, if_neg (by omega)]

end Sys2Proof.Machine
end

section
/-! PROOFS. What a host read leaves unchanged, and the accesses the window refuses. -/

namespace Sys2Proof.Machine

/-- Settles O50: an answered read is a free value drawn or a value received (logs 4 and 6). -/
theorem hostReadsChangeNoBlockState : Obligations.HostReadsChangeNoBlockState := by
  intro s t off size h
  rcases hostAccess_next h with ⟨_, _, -, -, rfl⟩ | ⟨_, _, -, rfl⟩ | ⟨_, _, _, hread, -⟩
  · rfl
  · rfl
  · cases hread

/-- Settles O54, by the numbers that `accessOk` stands for. -/
theorem malformedAccessesAreRefused : Obligations.MalformedAccessesAreRefused := by
  intro s off size v
  refine ⟨fun hin hbad => ?_, hostAccess_outside s size v⟩
  exact hostAccess_malformed v hin (Bool.eq_false_iff.2 fun hok => hbad (accessOk_iff.1 hok))

end Sys2Proof.Machine
end

section
/-! PROOFS. The register rows of the address map (20_memory.md R61). -/

namespace Sys2Proof.Machine

/-- The registers the host can write and read back (20_memory.md R61). -/
def readWriteRegs : List Reg :=
  [.wordLen, .frameWords, .frameBits, .syncPattern, .syncMask, .syncLen, .minSync, .parity, .byteOrder,
   .timePerBit, .baseTime, .payloadLen, .mode]

/-- `STATUS` and the read-only registers (20_memory.md R61). -/
def readOnlyRegs : List Reg :=
  [.status, .activeFrameBits, .frameNwords, .testWord, .bitsLoaded, .bitPosition, .mfBitCount, .mfWordCount,
   .dwBitCount, .syncCount, .syncErrors, .saveMode, .frameTime, .pktLen, .pktMode, .pktBaseTime]

variable {s : State} {r : Reg}

/-- A register read after the write of a read-write register: each write reaches one field, which one register reads. -/
theorem readReg_writeReg (v : Word) (h : r ∈ readWriteRegs) (r' : Reg) :
    readReg (writeReg s v r) r' = if r' = r then v else readReg s r' := by
  simp only [readWriteRegs, List.mem_cons, List.not_mem_nil, or_false] at h
  rcases h with rfl | rfl | rfl | rfl | rfl | rfl | rfl | rfl | rfl | rfl | rfl | rfl | rfl <;>
    cases r' <;> rfl

/-- Only a write of `CMD` hands over a word. -/
theorem writeReg_busy (v : Word) (h : r ≠ .cmd) : (writeReg s v r).busy = s.busy := by
  cases r with
  | cmd => exact absurd rfl h
  | _ => rfl

theorem writeReg_of_readOnly (v : Word) (h : r ∈ readOnlyRegs) : writeReg s v r = s := by
  cases r with
  | cmd | wordLen | frameWords | frameBits | syncPattern | syncMask | syncLen | minSync | parity | byteOrder
  | timePerBit | baseTime | payloadLen | mode => simp [readOnlyRegs] at h
  | _ => rfl

/-- The codes of `SAVE_MODE` as it reads (10_state.md R43). -/
theorem saveMode_number_setWidth (m : SaveMode) :
    (m.number.setWidth 64 : Word) = if m = .idle then 0 else if m = .collecting then 1 else 2 := by
  cases m <;> rfl

/-- A read-write register reads back what was written, and every other register as before (20_memory.md R64). -/
theorem hostAccess_write_then_read (v : Word) (hidle : s.busy = false) (hr : r ∈ readWriteRegs) :
    ∃ t, hostAccess (.write r.offset 8 v) s = .next t ∧
      hostAccess (.read r.offset 8) t = .next { t with hostData := v } ∧
      ∀ off w, off < 0x0F0 → off ≠ r.offset → hostAccess (.read off 8) s = .next { s with hostData := w } →
        hostAccess (.read off 8) t = .next { t with hostData := w } := by
  have hcmd : r ≠ .cmd := fun h => by subst h; exact absurd hr (by decide)
  have hidle' : (writeReg s v r).busy = false := (writeReg_busy v hcmd).trans hidle
  refine ⟨writeReg s v r, (hostAccess_register hidle r v).2, ?_, fun off w hlow hne hread => ?_⟩
  · rw [(hostAccess_register hidle' r v).1, readReg_writeReg v hr, if_pos rfl]
  · obtain ⟨-, halign, -⟩ := accessOk_iff.1 (accessOk_of_read_next (by omega) hread)
    obtain ⟨r', rfl⟩ := exists_reg_offset_eq hlow halign
    have hother : r' ≠ r := fun h => hne (congrArg Reg.offset h)
    rw [(hostAccess_register hidle r' v).1] at hread
    have hw : readReg s r' = w := congrArg State.hostData (Host.Outcome.next.inj hread)
    rw [(hostAccess_register hidle' r' v).1, readReg_writeReg v hr, if_neg hother, hw]

/-- Settles O51: each of the four tables is a list of registers taken to their offsets. -/
theorem registersAnswerAtTheirOffsets : Obligations.RegistersAnswerAtTheirOffsets := by
  intro s v hidle
  rw [← saveMode_number_setWidth]
  refine ⟨?reads, ?writes, ?ignored, ?readBack⟩
  case reads =>
    show ∀ c ∈ allRegs.map fun r => (r.offset, readReg s r), _
    exact List.forall_mem_map.2 fun r _ => (hostAccess_register hidle r v).1
  case writes =>
    show ∀ c ∈ (Reg.cmd :: readWriteRegs).map fun r => (r.offset, writeReg s v r), _
    exact List.forall_mem_map.2 fun r _ => (hostAccess_register hidle r v).2
  case ignored =>
    show ∀ off ∈ readOnlyRegs.map Reg.offset, _
    refine List.forall_mem_map.2 fun r hr => ?_
    rw [(hostAccess_register hidle r v).2, writeReg_of_readOnly v hr]
  case readBack =>
    show ∀ off ∈ readWriteRegs.map Reg.offset, _
    exact List.forall_mem_map.2 fun r hr => hostAccess_write_then_read v hidle hr

end Sys2Proof.Machine
end

section
/-! PROOFS. The reserved offsets and the output RAM (20_memory.md R61, R64). -/

namespace Sys2Proof.Machine

/-- Settles O55: each kind of reserved offset lies in the window, is accepted, and is `.reserved` in the map; the
output RAM's entries are read-only. -/
theorem reservedAndOutputOffsets : Obligations.ReservedAndOutputOffsets := by
  intro s v hidle
  refine ⟨fun off size hsize halign hwidth hoff => ?_, fun i hi hrow => ?_⟩
  · have hreserved : off < 0x200000 ∧ (0x100000 ≤ off → s.params.maxPayloadBytes ≤ off - 0x100000) ∧
        regionAt s.params off = .reserved := by
      rcases hoff with ⟨hmin, hmax⟩ | ⟨hmin, hmax⟩ | ⟨i, hi, hrow, rfl | rfl⟩ | ⟨b, hb, hmax, rfl⟩
      · exact ⟨by omega, by omega, regionAt_above_registers _ hmin hmax⟩
      · exact ⟨by omega, by omega, regionAt_above_outputs _ hmin hmax⟩
      · exact ⟨by omega, by omega, (regionAt_outWord _ hrow).trans (if_neg hi.not_gt)⟩
      · exact ⟨by omega, by omega, (regionAt_outErr _ hrow).trans (if_neg hi.not_gt)⟩
      · exact ⟨by omega, by omega, (regionAt_payload _ b).trans (if_neg hb.not_gt)⟩
    obtain ⟨hin, hpast, hregion⟩ := hreserved
    exact hostAccess_reserved v hidle hin (accessOk_iff.2 ⟨hsize, halign, hwidth, by omega⟩) hregion
  · obtain ⟨hword, hwordWrite⟩ := hostAccess_outWord v hidle hi hrow
    obtain ⟨herr, herrWrite⟩ := hostAccess_outErr v hidle hi hrow
    exact ⟨hword, hwordWrite, herr, herrWrite⟩

end Sys2Proof.Machine
end

section
/-! SUPPORT. The fields of a command word determine it, and say what the decoder answers (30_encoding.md R80 to R83). -/

namespace Sys2Proof

variable {c c' : Word} {i : Instr} {op : Nat} {bit : Bool}

theorem encode_fields (i : Instr) : Laws.EncodedFields.Statement i :=
  match i with
  | .nop => Laws.EncodedFields.nop
  | .configure => Laws.EncodedFields.configure
  | .setup => Laws.EncodedFields.setup
  | .decodeFirst => Laws.EncodedFields.decodeFirst
  | .decodeNext => Laws.EncodedFields.decodeNext
  | .feedBit b => Laws.EncodedFields.feedBit b
  | .swapBytes => Laws.EncodedFields.swapBytes
  | .swapShorts => Laws.EncodedFields.swapShorts

theorem cmdOp_eq (c : Word) : cmdOp c = c.toNat % 2 ^ 8 := by
  simp [cmdOp]

theorem cmdBit_iff : cmdBit c = true ↔ c.toNat / 2 ^ 8 % 2 = 1 := by
  rw [cmdBit, ← BitVec.testBit_toNat, Nat.testBit_eq_decide_div_mod_eq, decide_eq_true_iff]

theorem toNat_cmdRsv (c : Word) : (cmdRsv c).toNat = c.toNat / 2 ^ 9 := by
  have := c.isLt
  rw [cmdRsv, BitVec.extractLsb'_toNat, Nat.shiftRight_eq_div_pow]
  exact Nat.mod_eq_of_lt (by omega)

/-- The three fields cover the word. -/
theorem eq_of_fields (hop : cmdOp c = cmdOp c') (hbit : cmdBit c = cmdBit c') (hrsv : cmdRsv c = cmdRsv c') :
    c = c' := by
  have hrsv' := congrArg BitVec.toNat hrsv
  have hbit' := Bool.eq_iff_iff.1 hbit
  rw [cmdOp_eq, cmdOp_eq] at hop
  rw [toNat_cmdRsv, toNat_cmdRsv] at hrsv'
  rw [cmdBit_iff, cmdBit_iff] at hbit'
  exact BitVec.eq_of_toNat_eq (by omega)

theorem eq_encode_iff :
    c = encode i ↔ cmdOp c = (opcodeOf i).toNat ∧ cmdBit c = operandBit i ∧ cmdRsv c = 0 := by
  obtain ⟨hop, hbit, hrsv⟩ := encode_fields i
  refine ⟨fun h => h ▸ encode_fields i, fun ⟨hop', hbit', hrsv'⟩ => ?_⟩
  exact eq_of_fields (hop'.trans hop.symm) (hbit'.trans hbit.symm) (hrsv'.trans hrsv.symm)

/-- The opcode map in the direction of the decoder (30_encoding.md R82): it reads a command from that command's
opcode and operand bit only. -/
theorem decodeOp_eq_ok_iff :
    decodeOp op bit = .ok i ↔ op = (opcodeOf i).toNat ∧ bit = operandBit i := by
  constructor
  · fun_cases decodeOp op bit <;> rintro ⟨⟩ <;> exact ⟨rfl, rfl⟩
  · rintro ⟨rfl, rfl⟩
    cases i <;> rfl

/-- What the opcode map leaves out (30_encoding.md R83). -/
theorem decodeOp_eq_error_iff :
    (∃ e, decodeOp op bit = .error e) ↔ 0x08 ≤ op ∨ (bit = true ∧ op ≠ 0x05) := by
  fun_cases decodeOp op bit
  case case9 hfeed hlow _ _ _ _ _ _ _ =>
    have hbit : bit = true := by
      cases bit with
      | true => rfl
      | false => simp only [forall_const, imp_false] at *; omega
    exact iff_of_true ⟨_, rfl⟩ (.inr ⟨hbit, hfeed⟩)
  case case10 hhigh _ _ _ _ _ _ _ => exact iff_of_true ⟨_, rfl⟩ (.inl (Nat.not_lt.1 hhigh))
  all_goals simp

theorem decode_of_rsv_eq_zero (h : cmdRsv c = 0) : decode c = decodeOp (cmdOp c) (cmdBit c) :=
  if_neg (not_not.2 h)

theorem decode_of_rsv_ne_zero (h : cmdRsv c ≠ 0) : decode c = .error .reservedBits :=
  if_pos h

theorem decode_eq_ok_iff :
    decode c = .ok i ↔ cmdOp c = (opcodeOf i).toNat ∧ cmdBit c = operandBit i ∧ cmdRsv c = 0 := by
  by_cases hrsv : cmdRsv c = 0
  · rw [decode_of_rsv_eq_zero hrsv, decodeOp_eq_ok_iff, eq_true hrsv, and_true]
  · exact iff_of_false (by simp [decode_of_rsv_ne_zero hrsv]) fun ⟨_, _, hzero⟩ => hrsv hzero

theorem decode_eq_error_iff :
    (∃ e, decode c = .error e) ↔ cmdRsv c ≠ 0 ∨ 0x08 ≤ cmdOp c ∨ (cmdBit c = true ∧ cmdOp c ≠ 0x05) := by
  by_cases hrsv : cmdRsv c = 0
  · rw [decode_of_rsv_eq_zero hrsv, decodeOp_eq_error_iff, or_iff_right (not_not.2 hrsv)]
  · exact iff_of_true ⟨_, decode_of_rsv_ne_zero hrsv⟩ (.inl hrsv)

end Sys2Proof
end

section
/-! PROOFS. Decoding and encoding (30_encoding.md R80 to R83). -/

namespace Sys2Proof.Machine

/-- Settles O2: both sides say that the three fields of `c` are those of `i`. -/
theorem decodeAndEncodeAgree : Obligations.DecodeAndEncodeAgree :=
  fun _ _ => decode_eq_ok_iff.trans eq_encode_iff.symm

/-- Settles O1: the nine words of the opcode map are encodings, and the three illegal words have one fault each. -/
theorem commandWordsDecode : Obligations.CommandWordsDecode := by
  refine ⟨?_, ?_, ?_, ?_, ?_, ?_, ?_, ?_, ?_, ?strayBit, ?reservedOpcode, ?reservedBits⟩
  case strayBit | reservedOpcode | reservedBits => decide
  all_goals exact (decodeAndEncodeAgree _ _).2 (by decide)

end Sys2Proof.Machine
end

section
/-! PROOFS. The block's turn with an illegal command word (30_encoding.md R83). -/

namespace Sys2Proof.Machine

variable {s : State} {c : Word} {e : DecodeError}

theorem blockTurn_of_pending (h : s.pendingCmd = some c) : blockTurn s = performCommand c s := by
  simp [blockTurn, h]

theorem performCommand_of_error (h : decode c = .error e) : performCommand c s = .next (illegalWord s) := by
  simp [performCommand, h]

/-- The words of 30_encoding.md R83, by the fields of R80. -/
theorem illegalWord_iff :
    IllegalWord c ↔ cmdRsv c ≠ 0 ∨ 0x08 ≤ cmdOp c ∨ (cmdBit c = true ∧ cmdOp c ≠ 0x05) := by
  have hrsv : cmdRsv c ≠ 0 ↔ c.toNat / 2 ^ 9 ≠ 0 := by
    rw [← toNat_cmdRsv, ← BitVec.toNat_ne_iff_ne]
    rfl
  rw [hrsv, cmdBit_iff, cmdOp_eq]
  exact or_left_comm

/-- Settles O3: the decoder rejects by the same fields, and a rejected word's turn is `illegalWord`. -/
theorem illegalWordCompletesIllegalCommand : Obligations.IllegalWordCompletesIllegalCommand := by
  have hreject : ∀ c, IllegalWord c ↔ ∃ e, decode c = .error e :=
    fun _ => illegalWord_iff.trans decode_eq_error_iff.symm
  refine ⟨hreject, fun s c hpending hillegal => ?_⟩
  obtain ⟨e, herror⟩ := (hreject c).1 hillegal
  have hturn : ∀ t : State, t.pendingCmd = some c → blockTurn t = .next (illegalWord t) :=
    fun _ h => (blockTurn_of_pending h).trans (performCommand_of_error herror)
  refine ⟨fun hnil => ?_, fun rest hblock => ?_⟩
  · rw [step_of_turns_nil hnil, hturn s hpending]
    rfl
  · rw [step_of_block_turn hblock, hturn { s with turns := rest } hpending]
    rfl

end Sys2Proof.Machine
end

section
/-! SUPPORT. STEP as one equation per case (40_bit_sync.md R101), when a bit releases (R106), and what it does to
`SAVE_MODE` and `MF_BIT_COUNT` (R103, R110, R113). -/

namespace Sys2Proof.Machine

variable {a : Attrs} {base : Word} {b : Bool} {d : Decoder}

theorem stepBit_of_release (hfire : syncTest a (loadBit b d) = true) (hoffset : satInc d.mfBitCount = a.frameBits)
    (hrelease : releases a (confirmSync (loadBit b d)) = true) :
    stepBit a base b d = (syncReset (release a base (confirmSync (loadBit b d))), true) := by
  simp [stepBit, onSync, correctOffset, hfire, hoffset, hrelease]

theorem stepBit_of_confirm (hfire : syncTest a (loadBit b d) = true) (hoffset : satInc d.mfBitCount = a.frameBits)
    (hrelease : releases a (confirmSync (loadBit b d)) = false) :
    stepBit a base b d = (syncReset (confirmSync (loadBit b d)), false) := by
  simp [stepBit, onSync, correctOffset, hfire, hoffset, hrelease]

theorem stepBit_of_wrongOffset (hfire : syncTest a (loadBit b d) = true)
    (hoffset : satInc d.mfBitCount ≠ a.frameBits) :
    stepBit a base b d = (syncReset (wrongOffset (loadBit b d)), false) := by
  simp [stepBit, onSync, hfire, hoffset]

theorem stepBit_of_collecting (hfire : syncTest a (loadBit b d) = false) (hmode : d.saveMode = .collecting) :
    stepBit a base b d = (accumulate a (loadBit b d), false) := by
  simp [stepBit, onData, hfire, hmode]

theorem stepBit_of_partialWord (hfire : syncTest a (loadBit b d) = false) (hmode : d.saveMode = .collecting)
    (hword : d.dwBitCount + 1 ≠ a.wordLen) :
    stepBit a base b d = ({ loadBit b d with dwBitCount := d.dwBitCount + 1 }, false) := by
  rw [stepBit_of_collecting hfire hmode]
  rcases accumulate_cases a (loadBit b d) with ⟨-, e⟩ | ⟨h, -⟩
  · exact congrArg (·, false) e
  · exact absurd h hword

theorem stepBit_of_completedWord (hfire : syncTest a (loadBit b d) = false) (hmode : d.saveMode = .collecting)
    (hword : d.dwBitCount + 1 = a.wordLen) :
    stepBit a base b d =
      (fullTest a (wordWrite a { loadBit b d with dwBitCount := d.dwBitCount + 1 }), false) := by
  rw [stepBit_of_collecting hfire hmode]
  rcases accumulate_cases a (loadBit b d) with ⟨h, -⟩ | ⟨-, e⟩
  · exact absurd hword h
  · exact congrArg (·, false) e

theorem stepBit_of_outsideFrame (hfire : syncTest a (loadBit b d) = false) (hmode : d.saveMode ≠ .collecting) :
    stepBit a base b d = (loadBit b d, false) := by
  simp [stepBit, onData, hfire, hmode]

/-- The release test sees the mode before the bit and the incremented count (40_bit_sync.md R106). -/
theorem releases_confirmSync_loadBit :
    releases a (confirmSync (loadBit b d)) = true ↔
      d.saveMode = .full ∧ (a.minSync.toNat : Int) ≤ (satIncSigned d.syncCount).toInt := by
  unfold releases
  rw [Bool.and_eq_true, decide_eq_true_iff, decide_eq_true_iff]
  rfl

/-- The "released" column of the table of 40_bit_sync.md R113. -/
theorem stepBit_released_iff :
    (stepBit a base b d).2 = true ↔
      d.saveMode = .full ∧ syncTest a (loadBit b d) = true ∧ satInc d.mfBitCount = a.frameBits ∧
        (a.minSync.toNat : Int) ≤ (satIncSigned d.syncCount).toInt := by
  have hreleases := releases_confirmSync_loadBit (a := a) (b := b) (d := d)
  rcases stepBit_cases a base b d with ⟨hfire, hoffset, hr, e⟩ | ⟨hfire, hoffset, hr, e⟩ | ⟨hfire, hoffset, e⟩ |
    ⟨hfire, -, -, e⟩ | ⟨hfire, -, -, e⟩ | ⟨hfire, -, e⟩ <;> rw [e]
  · simp [hfire, hoffset, hreleases.1 hr]
  · rw [hr] at hreleases
    simpa [hfire, hoffset] using hreleases
  · simp [hoffset]
  all_goals simp [hfire]

/-- A sync fire, at either offset, starts a frame (40_bit_sync.md R110). -/
theorem stepBit_of_fire (hfire : syncTest a (loadBit b d) = true) :
    (stepBit a base b d).1.saveMode = .collecting ∧ (stepBit a base b d).1.mfBitCount = 0 := by
  unfold stepBit onSync
  rw [if_pos hfire]
  split_ifs <;> exact ⟨rfl, rfl⟩

/-- Without a sync fire the bit is counted in the frame (40_bit_sync.md R103, R111). -/
theorem stepBit_mfBitCount_of_noFire (hfire : syncTest a (loadBit b d) = false) :
    (stepBit a base b d).1.mfBitCount = satInc d.mfBitCount := by
  by_cases hmode : d.saveMode = .collecting
  · by_cases hword : d.dwBitCount + 1 = a.wordLen
    · rw [stepBit_of_completedWord hfire hmode hword]
      rfl
    · rw [stepBit_of_partialWord hfire hmode hword]
      rfl
  · rw [stepBit_of_outsideFrame hfire hmode]
    rfl

theorem stepBit_saveMode_of_outsideFrame (hfire : syncTest a (loadBit b d) = false)
    (hmode : d.saveMode ≠ .collecting) : (stepBit a base b d).1.saveMode = d.saveMode := by
  rw [stepBit_of_outsideFrame hfire hmode]
  rfl

theorem stepBit_saveMode_of_collecting (hfire : syncTest a (loadBit b d) = false)
    (hmode : d.saveMode = .collecting) :
    (stepBit a base b d).1.saveMode =
      if d.dwBitCount + 1 = a.wordLen ∧ d.mfWordCount + 1 = a.frameWords then .full else .collecting := by
  by_cases hword : d.dwBitCount + 1 = a.wordLen
  · rw [stepBit_of_completedWord hfire hmode hword]
    by_cases hlast : d.mfWordCount + 1 = a.frameWords
    · rw [if_pos ⟨hword, hlast⟩]
      exact if_pos hlast
    · rw [if_neg fun h => hlast h.2]
      exact (if_neg hlast).trans hmode
  · rw [stepBit_of_partialWord hfire hmode hword, if_neg (fun h => hword h.1)]
    exact hmode

end Sys2Proof.Machine
end

section
/-! PROOFS. The bit reader, SHIFT, COUNT, CAP, the sync test, the timestamp and the mode table (40_bit_sync.md R100 to
R113). -/

namespace Sys2Proof.Machine

theorem satInc_toNat_eq_min (v : Word) : (satInc v).toNat = min (v.toNat + 1) (2 ^ 64 - 1) := by
  have hlt := v.isLt
  rw [satInc_toNat]
  split_ifs <;> omega

theorem satIncSigned_toInt_eq_min (v : Word) : (satIncSigned v).toInt = min (v.toInt + 1) (2 ^ 63 - 1) := by
  have hlt := BitVec.toInt_lt (x := v)
  rw [satIncSigned_toInt]
  split_ifs <;> omega

/-- Settles O19: `8 * k + j` has quotient `k` and remainder `j`. -/
theorem streamBitsAreMostSignificantFirst : Obligations.StreamBitsAreMostSignificantFirst := by
  intro p m k j hj
  have hbyte : (8 * k + j) / 8 = k := by omega
  have hbit : (8 * k + j) % 8 = j := by omega
  simp [bitAt, hbyte, hbit]

/-- SHIFT as a number (40_bit_sync.md R102). -/
theorem toNat_shiftConcat_word (v : Word) (b : Bool) : (v.shiftConcat b).toNat = (2 * v.toNat + b.toNat) % 2 ^ 64 := by
  have hb := b.toNat_lt
  rw [BitVec.toNat_shiftConcat, Nat.shiftLeft_eq]
  omega

/-- COUNT and CAP on `BITS_LOADED` as a number (40_bit_sync.md R103, R104). -/
theorem loadBit_bitsLoaded_toNat (b : Bool) {d : Decoder} (h : d.bitsLoaded.toNat + 1 < 2 ^ 64) :
    (loadBit b d).bitsLoaded.toNat =
      if 10 ^ 12 < d.bitsLoaded.toNat + 1 then 10 ^ 9 else d.bitsLoaded.toNat + 1 := by
  have hsucc : (d.bitsLoaded + 1).toNat = d.bitsLoaded.toNat + 1 := by
    rw [BitVec.toNat_add]
    exact Nat.mod_eq_of_lt h
  rw [loadBit_bitsLoaded, apply_ite BitVec.toNat, hsucc]
  rfl

/-- A pattern length is at most 64, and the cap acts far above it (40_bit_sync.md R104, R105). -/
theorem syncTest_capLoaded {a : Attrs} (ha : a.syncLen.toNat ≤ 64) (d : Decoder) :
    syncTest a (capLoaded d) = syncTest a d := by
  have hgate : a.syncLen.toNat ≤ (capLoaded d).bitsLoaded.toNat ↔ a.syncLen.toNat ≤ d.bitsLoaded.toNat := by
    rw [capLoaded_bitsLoaded]
    split_ifs with hcap
    · have hvalue : capValue.toNat = 1000000000 := rfl
      have hlimit : capLimit = 1000000000000 := rfl
      omega
    · rfl
  unfold syncTest
  rw [decide_eq_decide.2 hgate]
  rfl

/-- Settles O20, register by register. -/
theorem everyBitIsShiftedCountedAndCapped : Obligations.EveryBitIsShiftedCountedAndCapped :=
  fun b d h => ⟨toNat_shiftConcat_word d.testWord b, loadBit_bitsLoaded_toNat b h, satInc_toNat_eq_min _,
    satInc_toNat_eq_min _, rfl, fun _ ha => syncTest_capLoaded ha.syncLen.2 d⟩

theorem syncTest_iff {a : Attrs} {d : Decoder} :
    syncTest a d = true ↔ a.syncLen.toNat ≤ d.bitsLoaded.toNat ∧ d.testWord &&& a.syncMask = a.syncPattern := by
  simp [syncTest]

/-- A masked comparison with a pattern inside the mask, as its bits (40_bit_sync.md R105). -/
theorem maskedMatch_iff {word mask pattern : Word}
    (hpattern : ∀ i, mask.getLsbD i = false → pattern.getLsbD i = false) :
    word &&& mask = pattern ↔ ∀ i, mask.getLsbD i = true → word.getLsbD i = pattern.getLsbD i := by
  constructor
  · rintro rfl i hi
    simp [hi]
  · intro h
    refine BitVec.eq_of_getLsbD_eq fun i _ => ?_
    rw [BitVec.getLsbD_and]
    cases hi : mask.getLsbD i
    · simp [hpattern i hi]
    · simp [h i hi]

/-- Settles O21: the test is its two conditions, and the comparison is bitwise since a valid pattern lies inside its
mask. -/
theorem syncFiresOnAnExactMaskedMatch : Obligations.SyncFiresOnAnExactMaskedMatch := by
  refine fun a d => ⟨syncTest_iff, fun ha => ⟨?_, fun hgate => ?_⟩⟩
  · rw [syncTest_iff, maskedMatch_iff ha.pattern]
  · exact syncTest_iff.2 ⟨hgate, (maskedMatch_iff ha.pattern).2 fun _ _ => rfl⟩

/-- The timestamp is the base plus a number of ticks, modulo 2^64 (40_bit_sync.md R108). -/
theorem timestamp_eq_add (a : Attrs) (base pos : Word) :
    timestamp a base pos =
      base + BitVec.ofInt 64 (((pos.toNat : Int) - a.frameBits.toNat) * a.timePerBit.toNat / 2 ^ 32) := by
  unfold timestamp
  rw [BitVec.ofInt_add, BitVec.ofInt_toInt]
  rfl

/-- Settles O34: the two inequalities are those of the quotient by 2^32. -/
theorem timestampRoundsTowardMinusInfinity : Obligations.TimestampRoundsTowardMinusInfinity := by
  intro a base pos ticks hlow hhigh
  have hticks : ((pos.toNat : Int) - a.frameBits.toNat) * a.timePerBit.toNat / 2 ^ 32 = ticks :=
    Int.ediv_eq_iff_of_pos (by decide) |>.2 ⟨by linarith, by linarith⟩
  rw [timestamp_eq_add, hticks, BitVec.ofInt_add, BitVec.ofInt_toInt]

/-- Settles O28, by the equation of STEP for each row of the table. -/
theorem saveModeFollowsItsTable : Obligations.SaveModeFollowsItsTable :=
  fun _ _ _ _ => ⟨fun hfire => (stepBit_of_fire hfire).1, stepBit_saveMode_of_outsideFrame,
    stepBit_saveMode_of_collecting, stepBit_released_iff⟩

end Sys2Proof.Machine
end

section
/-! PROOFS. FEED_BIT as one bit step (43_commands.md R187). -/

namespace Sys2Proof.Machine

variable {s : State} {a : Attrs}

/-- FEED_BIT with setup done and the latch clear is steps 3 and 4 of 43_commands.md R187. -/
theorem exec_feedBit_of_ready (hfatal : s.fatal = none) (hsetup : s.needsSetup = false) (hset : s.attrs = some a)
    (b : Bool) : exec (.feedBit b) s = .next (feedStep a b s) := by
  simp [exec, execFeedBit, hfatal, hsetup, hset]

theorem feedStep_of_stepBit {b r : Bool} {d : Decoder} (h : stepBit a s.pkt.baseTime b s.dec = (d, r)) :
    feedStep a b s = (s.withDec d).complete (if r then .frame else .ok) := by
  simp [feedStep, h]

/-- Settles O23. -/
theorem feedBitOutsideAFrameOnlyCounts : Obligations.FeedBitOutsideAFrameOnlyCounts := by
  intro s a b hfatal hsetup hset hfire hmode
  rw [exec_feedBit_of_ready hfatal hsetup hset, feedStep_of_stepBit (stepBit_of_outsideFrame hfire hmode)]
  rfl

/-- Settles O24. -/
theorem feedBitAtAWrongOffsetRestarts : Obligations.FeedBitAtAWrongOffsetRestarts := by
  refine ⟨satInc_toNat_eq_min, fun s a b hfatal hsetup hset hfire hoffset => ?_⟩
  rw [exec_feedBit_of_ready hfatal hsetup hset, feedStep_of_stepBit (stepBit_of_wrongOffset hfire hoffset),
    ← ite_not (s.dec.syncCount = -1)]
  rfl

/-- Settles O25: the release test separates the two cases. -/
theorem feedBitAtTheCorrectOffsetReleases : Obligations.FeedBitAtTheCorrectOffsetReleases := by
  refine ⟨satIncSigned_toInt_eq_min, fun s a b hfatal hsetup hset hfire hoffset => ?_⟩
  rw [exec_feedBit_of_ready hfatal hsetup hset, ← releases_confirmSync_loadBit (b := b)]
  refine ⟨fun hrelease => ?_, fun hrelease => ?_⟩
  · rw [feedStep_of_stepBit (stepBit_of_release hfire hoffset hrelease)]
    rfl
  · rw [feedStep_of_stepBit (stepBit_of_confirm hfire hoffset (Bool.eq_false_of_not_eq_true hrelease))]
    rfl

/-- Settles O33: before the first sync the invariant has the mode IDLE, so the bit is only loaded or starts a frame
(40_bit_sync.md R117). -/
theorem firstSyncIsNoErrorAndNoRelease : Obligations.FirstSyncIsNoErrorAndNoRelease := by
  intro s b hinv hfatal hsetup hcount
  obtain ⟨a, hset, hconsistent⟩ := hinv.decoder hsetup
  have hidle : s.dec.saveMode = .idle := hconsistent.noSyncYet.2 hcount
  have hrelease : releases a (confirmSync (loadBit b s.dec)) = false := by simp [releases, hidle]
  refine ⟨_, exec_feedBit_of_ready hfatal hsetup hset b, ?_⟩
  cases hfire : syncTest a (loadBit b s.dec)
  · rw [feedStep_of_stepBit (stepBit_of_outsideFrame hfire (by simp [hidle]))]
    exact ⟨rfl, rfl, rfl, rfl⟩
  · by_cases hoffset : satInc s.dec.mfBitCount = a.frameBits
    · rw [feedStep_of_stepBit (stepBit_of_confirm hfire hoffset hrelease)]
      exact ⟨rfl, rfl, rfl, rfl⟩
    · rw [feedStep_of_stepBit (stepBit_of_wrongOffset hfire hoffset)]
      simp [hcount]

end Sys2Proof.Machine
end

section
/-! PROOFS. A released frame lies between two sync fires (40_bit_sync.md R107). -/

namespace Sys2Proof.Machine

variable {a : Attrs} {base : Word}

/-- In the stream `before ++ fire :: between` from setup, the bit `fire` is the last sync fire. -/
def LastFireAt (a : Attrs) (base : Word) (before : List Bool) (fire : Bool) (between : List Bool) : Prop :=
  syncTest a (loadBit fire (feedAll a base before Decoder.setupValue)) = true ∧
  anyFire a base between (feedAll a base (before ++ [fire]) Decoder.setupValue) = false

theorem feedAll_concat (bs : List Bool) (b : Bool) (d : Decoder) :
    feedAll a base (bs ++ [b]) d = (stepBit a base b (feedAll a base bs d)).1 :=
  feedAll_append a base bs [b] d

theorem LastFireAt.concat {before between : List Bool} {fire b : Bool} (h : LastFireAt a base before fire between)
    (hfire : syncTest a (loadBit b (feedAll a base (before ++ fire :: between) Decoder.setupValue)) = false) :
    LastFireAt a base before fire (between ++ [b]) := by
  obtain ⟨hlast, hquiet⟩ := h
  rw [List.append_cons, feedAll_append] at hfire
  exact ⟨hlast, by simp [anyFire_append, anyFire, hquiet, hfire]⟩

/-- Once the mode has left IDLE there has been a fire, and `MF_BIT_COUNT` counts the bits after the last one
(40_bit_sync.md R103, R110). -/
theorem exists_lastFireAt {bs : List Bool} (hlen : bs.length < 2 ^ 64)
    (hmode : (feedAll a base bs Decoder.setupValue).saveMode ≠ .idle) :
    ∃ before fire between, bs = before ++ fire :: between ∧ LastFireAt a base before fire between ∧
      (feedAll a base bs Decoder.setupValue).mfBitCount.toNat = between.length := by
  induction bs using List.reverseRecOn with
  | nil => exact absurd rfl hmode
  | append_singleton bs b ih =>
    rw [List.length_append, List.length_singleton] at hlen
    rw [feedAll_concat] at hmode ⊢
    cases hfire : syncTest a (loadBit b (feedAll a base bs Decoder.setupValue))
    · have hbefore : (feedAll a base bs Decoder.setupValue).saveMode ≠ .idle := fun hidle =>
        hmode ((stepBit_saveMode_of_outsideFrame hfire (by simp [hidle])).trans hidle)
      obtain ⟨before, fire, between, rfl, hlast, hcount⟩ := ih (by omega) hbefore
      refine ⟨before, fire, between ++ [b], by simp, hlast.concat hfire, ?_⟩
      rw [stepBit_mfBitCount_of_noFire hfire, satInc_toNat_eq_min, hcount]
      simp only [List.length_append, List.length_cons, List.length_nil] at hlen ⊢
      omega
    · refine ⟨bs, b, [], rfl, ⟨hfire, rfl⟩, ?_⟩
      rw [(stepBit_of_fire hfire).2]
      rfl

/-- Settles O31: a releasing bit is a fire in a FULL frame, and `MF_BIT_COUNT` counts the bits since the last fire. -/
theorem releasedFramesAreBracketed : Obligations.ReleasedFramesAreBracketed := by
  intro a base bs b hlen hreleased
  obtain ⟨hfull, hfire, hoffset, -⟩ := stepBit_released_iff.1 hreleased
  obtain ⟨before, fire, between, rfl, ⟨hlast, hquiet⟩, hcount⟩ :=
    exists_lastFireAt (a := a) (base := base) (bs := bs) (by omega) (by rw [hfull]; decide)
  refine ⟨hfire, before, fire, between, rfl, hlast, hquiet, ?_⟩
  rw [← hoffset, satInc_toNat_eq_min, hcount]
  rw [List.length_append, List.length_cons] at hlen
  omega

end Sys2Proof.Machine
end

section
/-! SUPPORT. RUN as the equation of its loop, and induction over its turns (40_bit_sync.md R112). -/

namespace Sys2Proof.Machine

variable {p : Params} {a : Attrs} {pkt : Packet} {m : List Host.Cell} {d : Decoder}

/-- One turn of RUN's loop: STEP on the stream bit at the cursor (40_bit_sync.md R112). -/
def runStep (p : Params) (a : Attrs) (pkt : Packet) (m : List Host.Cell) (d : Decoder) : Decoder × Bool :=
  stepBit a pkt.baseTime (bitAt p m d.bitPosition.toNat) d

/-- While bits are left the cursor is below its maximum, so a turn moves it by one. -/
theorem runStep_bitPosition_toNat (hbound : dataBits p pkt < 2 ^ 64) (hleft : d.bitPosition.toNat < dataBits p pkt) :
    (runStep p a pkt m d).1.bitPosition.toNat = d.bitPosition.toNat + 1 := by
  rw [runStep, stepBit_bitPosition, satInc_toNat_eq_min]
  omega

theorem runLoop_succ (base : Word) (nbits fuel : Nat) (hleft : d.bitPosition.toNat < nbits) :
    runLoop p a base m nbits (fuel + 1) d =
      if (stepBit a base (bitAt p m d.bitPosition.toNat) d).2 then
        ((stepBit a base (bitAt p m d.bitPosition.toNat) d).1, true)
      else runLoop p a base m nbits fuel (stepBit a base (bitAt p m d.bitPosition.toNat) d).1 := by
  rw [runLoop, if_pos hleft]
  rcases stepBit a base (bitAt p m d.bitPosition.toNat) d with ⟨d', _ | _⟩ <;> rfl

theorem run_of_noBitsLeft (hend : dataBits p pkt ≤ d.bitPosition.toNat) : run p a pkt m d = (d, false) := by
  rw [run, Nat.sub_eq_zero_of_le hend, runLoop]

/-- The turns that the first one leaves are those of a RUN from the next state (log 9). -/
theorem run_of_bitsLeft (hbound : dataBits p pkt < 2 ^ 64) (hleft : d.bitPosition.toNat < dataBits p pkt) :
    run p a pkt m d =
      if (runStep p a pkt m d).2 then ((runStep p a pkt m d).1, true) else run p a pkt m (runStep p a pkt m d).1 := by
  have hturns : dataBits p pkt - d.bitPosition.toNat =
      dataBits p pkt - (runStep p a pkt m d).1.bitPosition.toNat + 1 := by
    rw [runStep_bitPosition_toNat hbound hleft]
    omega
  rw [run, hturns, runLoop_succ _ _ _ hleft]
  rfl

theorem run_of_release (hbound : dataBits p pkt < 2 ^ 64) (hleft : d.bitPosition.toNat < dataBits p pkt)
    (hreleased : (runStep p a pkt m d).2 = true) : run p a pkt m d = ((runStep p a pkt m d).1, true) := by
  rw [run_of_bitsLeft hbound hleft, if_pos hreleased]

theorem run_of_noRelease (hbound : dataBits p pkt < 2 ^ 64) (hleft : d.bitPosition.toNat < dataBits p pkt)
    (hreleased : (runStep p a pkt m d).2 = false) : run p a pkt m d = run p a pkt m (runStep p a pkt m d).1 := by
  rw [run_of_bitsLeft hbound hleft, if_neg (by simp [hreleased])]

/-- Induction over the turns of a RUN: no bits left, a turn that releases, a turn before the rest. -/
theorem run_turnInduct {motive : Decoder → Prop} (hbound : dataBits p pkt < 2 ^ 64)
    (noBitsLeft : ∀ d, dataBits p pkt ≤ d.bitPosition.toNat → motive d)
    (release : ∀ d, d.bitPosition.toNat < dataBits p pkt → (runStep p a pkt m d).2 = true → motive d)
    (turn : ∀ d, d.bitPosition.toNat < dataBits p pkt → (runStep p a pkt m d).2 = false →
      motive (runStep p a pkt m d).1 → motive d) (d : Decoder) : motive d := by
  induction hturns : dataBits p pkt - d.bitPosition.toNat generalizing d with
  | zero => exact noBitsLeft d (by omega)
  | succ turns ih =>
    have hleft : d.bitPosition.toNat < dataBits p pkt := by omega
    cases hreleased : (runStep p a pkt m d).2
    · exact turn d hleft hreleased (ih _ (by rw [runStep_bitPosition_toNat hbound hleft]; omega))
    · exact release d hleft hreleased

/-- Settles O15, by the equation of one turn. -/
theorem runFollowsItsLoop : Obligations.RunFollowsItsLoop :=
  fun _ _ _ _ _ hbound =>
    ⟨rfl, run_of_noBitsLeft,
      fun hleft => ⟨run_of_release hbound hleft, run_of_noRelease hbound hleft⟩, fun _ => rfl⟩

end Sys2Proof.Machine
end

section
/-! PROOFS. RUN and FEED_BIT on the same stream bits (40_bit_sync.md R112, 43_commands.md R186, R187). -/

namespace Sys2Proof.Machine

theorem streamBits_succ (p : Params) (m : List Host.Cell) (i n : Nat) :
    streamBits p m i (n + 1) = bitAt p m i :: streamBits p m (i + 1) n := by
  simp [streamBits, List.range_succ_eq_map, Nat.add_assoc, Nat.add_comm 1]

/-- The stream bits that are left of the data region, from the cursor on. -/
def bitsLeft (p : Params) (pkt : Packet) (m : List Host.Cell) (d : Decoder) : List Bool :=
  streamBits p m d.bitPosition.toNat (dataBits p pkt - d.bitPosition.toNat)

section
variable {p : Params} {a : Attrs} {pkt : Packet} {m : List Host.Cell} {d : Decoder}

theorem bitsLeft_eq_nil (hend : dataBits p pkt ≤ d.bitPosition.toNat) : bitsLeft p pkt m d = [] := by
  simp [bitsLeft, streamBits, hend]

theorem bitsLeft_eq_cons (a : Attrs) (hbound : dataBits p pkt < 2 ^ 64)
    (hleft : d.bitPosition.toNat < dataBits p pkt) :
    bitsLeft p pkt m d =
      bitAt p m d.bitPosition.toNat :: bitsLeft p pkt m (runStep p a pkt m d).1 := by
  have hturns : dataBits p pkt - d.bitPosition.toNat = dataBits p pkt - (d.bitPosition.toNat + 1) + 1 := by omega
  rw [bitsLeft, hturns, streamBits_succ, bitsLeft, runStep_bitPosition_toNat hbound hleft]

/-- A RUN that releases nothing feeds the bits left and stops at the end of the data region, by induction over its
turns. -/
theorem run_feeds_bitsLeft (hbound : dataBits p pkt < 2 ^ 64) (hle : d.bitPosition.toNat ≤ dataBits p pkt)
    (hquiet : (run p a pkt m d).2 = false) :
    (run p a pkt m d).1 = feedAll a pkt.baseTime (bitsLeft p pkt m d) d ∧
    (run p a pkt m d).1.bitPosition.toNat = dataBits p pkt := by
  induction d using run_turnInduct (a := a) (m := m) hbound with
  | noBitsLeft d hend =>
    rw [run_of_noBitsLeft hend, bitsLeft_eq_nil hend]
    exact ⟨rfl, le_antisymm hle hend⟩
  | release d hleft hreleased => rw [run_of_release hbound hleft hreleased] at hquiet; cases hquiet
  | turn d hleft hreleased ih =>
    have hnext := runStep_bitPosition_toNat (a := a) (m := m) hbound hleft
    rw [run_of_noRelease hbound hleft hreleased] at hquiet ⊢
    rw [bitsLeft_eq_cons a hbound hleft]
    exact ih (by omega) hquiet

/-- Settles O16: the bits left are the stream bits from the cursor to the end of the data region. -/
theorem runWithoutReleaseFeedsEveryBit : Obligations.RunWithoutReleaseFeedsEveryBit :=
  fun _ _ _ _ _ => run_feeds_bitsLeft

end

variable {s : State} {a : Attrs}

/-- FEEDS of at least one bit: its first command, and the rest unless that one completes with `FRAME`
(30_encoding.md R87). -/
theorem feedCommands_cons (hfatal : s.fatal = none) (hsetup : s.needsSetup = false) (hset : s.attrs = some a)
    (b : Bool) (bs : List Bool) :
    feedCommands (b :: bs) s =
      if (stepBit a s.pkt.baseTime b s.dec).2 then
        .next ((s.withDec (stepBit a s.pkt.baseTime b s.dec).1).complete .frame)
      else feedCommands bs ((s.withDec (stepBit a s.pkt.baseTime b s.dec).1).complete .ok) := by
  rw [feedCommands, exec_feedBit_of_ready hfatal hsetup hset]
  rcases hstep : stepBit a s.pkt.baseTime b s.dec with ⟨d, _ | _⟩ <;> simp [feedStep_of_stepBit hstep]

/-- FEED_BIT commands for the bits left reach the decoder state of RUN (40_bit_sync.md R112), by induction over the
turns of the RUN. -/
theorem feedCommands_bitsLeft (hfatal : s.fatal = none) (hsetup : s.needsSetup = false) (hset : s.attrs = some a)
    (hbound : dataBits s.params s.pkt < 2 ^ 64) (d : Decoder) :
    feedCommands (bitsLeft s.params s.pkt s.payload d) ((s.withDec d).complete .ok) =
      .next ((s.withDec (run s.params a s.pkt s.payload d).1).complete
        (if (run s.params a s.pkt s.payload d).2 then .frame else .ok)) := by
  induction d using run_turnInduct (a := a) (m := s.payload) hbound with
  | noBitsLeft d hend =>
    rw [bitsLeft_eq_nil hend, run_of_noBitsLeft hend]
    rfl
  | release d hleft hreleased =>
    rw [bitsLeft_eq_cons a hbound hleft,
      feedCommands_cons (s := (s.withDec d).complete .ok) (a := a) hfatal hsetup hset,
      run_of_release hbound hleft hreleased]
    exact if_pos hreleased
  | turn d hleft hreleased ih =>
    rw [bitsLeft_eq_cons a hbound hleft,
      feedCommands_cons (s := (s.withDec d).complete .ok) (a := a) hfatal hsetup hset,
      run_of_noRelease hbound hleft hreleased, ← ih]
    exact if_neg (by simpa [runStep] using hreleased)

/-- DECODE_NEXT with a packet loaded and the latch clear is RUN (43_commands.md R186). -/
theorem exec_decodeNext_of_loaded (hfatal : s.fatal = none) (hset : s.attrs = some a) (hready : s.pktReady = true) :
    exec .decodeNext s = .next (runPacket a s) := by
  simp [exec, execDecodeNext, hfatal, hset, hready]

/-- Settles O17: with a bit left the first command overwrites the result and BUSY, so the commands from `s` are those
from `s` completed with `OK`, which follow RUN. -/
theorem decodeNextEqualsFeedBits : Obligations.DecodeNextEqualsFeedBits := by
  intro s a hfatal hsetup hset hready hbound hleft
  have hfirst : feedCommands (bitsLeft s.params s.pkt s.payload s.dec) s =
      feedCommands (bitsLeft s.params s.pkt s.payload s.dec) ((s.withDec s.dec).complete .ok) := by
    rw [bitsLeft_eq_cons a hbound hleft, feedCommands_cons hfatal hsetup hset,
      feedCommands_cons (s := (s.withDec s.dec).complete .ok) (a := a) hfatal hsetup hset]
    rfl
  refine ⟨_, _, exec_decodeNext_of_loaded hfatal hset hready,
    hfirst.trans (feedCommands_bitsLeft hfatal hsetup hset hbound s.dec), ?_⟩
  unfold runPacket
  cases (run s.params a s.pkt s.payload s.dec).2 <;> rfl

end Sys2Proof.Machine
end

section
/-! PROOFS. A packet split in two (40_bit_sync.md R114). -/

namespace Sys2Proof.Machine

theorem loadBit_streamPart (b : Bool) (d : Decoder) :
    loadBit b d.streamPart = { loadBit b d with bitPosition := satInc 0, frameTime := 0 } := rfl

/-- The base and the cursor reach nothing of a bit step but the timestamp and the cursor. -/
theorem stepBit_streamPart (a : Attrs) (base base' : Word) (b : Bool) (d : Decoder) :
    (stepBit a base b d).1.streamPart = (stepBit a base' b d.streamPart).1.streamPart ∧
    (stepBit a base b d).2 = (stepBit a base' b d.streamPart).2 := by
  rcases stepBit_cases a base b d with ⟨hfire, hoffset, hr, e⟩ | ⟨hfire, hoffset, hr, e⟩ | ⟨hfire, hoffset, e⟩ |
    ⟨hfire, hmode, hword, e⟩ | ⟨hfire, hmode, hword, e⟩ | ⟨hfire, hmode, e⟩ <;> rw [e]
  · rw [stepBit_of_release (d := d.streamPart) hfire hoffset hr, loadBit_streamPart]
    exact ⟨rfl, rfl⟩
  · rw [stepBit_of_confirm (d := d.streamPart) hfire hoffset hr, loadBit_streamPart]
    exact ⟨rfl, rfl⟩
  · rw [stepBit_of_wrongOffset (d := d.streamPart) hfire hoffset, loadBit_streamPart]
    exact ⟨rfl, rfl⟩
  · rw [stepBit_of_partialWord (d := d.streamPart) hfire hmode hword, loadBit_streamPart]
    exact ⟨rfl, rfl⟩
  · rw [stepBit_of_completedWord (d := d.streamPart) hfire hmode hword, loadBit_streamPart]
    exact ⟨rfl, rfl⟩
  · rw [stepBit_of_outsideFrame (d := d.streamPart) hfire hmode, loadBit_streamPart]
    exact ⟨rfl, rfl⟩

/-- The same bit from two states of the same stream, over any two bases (40_bit_sync.md R114). -/
theorem stepBit_of_streamPart_eq {d d' : Decoder} (h : d.streamPart = d'.streamPart) (a : Attrs) (base base' : Word)
    (b : Bool) :
    (stepBit a base b d).1.streamPart = (stepBit a base' b d').1.streamPart ∧
    (stepBit a base b d).2 = (stepBit a base' b d').2 := by
  obtain ⟨hstate, hreleased⟩ := stepBit_streamPart a base base' b d
  obtain ⟨hstate', hreleased'⟩ := stepBit_streamPart a base' base' b d'
  rw [hstate, hreleased, h, ← hstate', ← hreleased']
  exact ⟨rfl, rfl⟩

/-- A bit that releases nothing does not see the base (40_bit_sync.md R101). -/
theorem stepBit_eq_of_noRelease {a : Attrs} {base base' : Word} {b : Bool} {d : Decoder}
    (h : (stepBit a base b d).2 = false) : stepBit a base' b d = stepBit a base b d := by
  rcases stepBit_cases a base b d with ⟨-, -, -, e⟩ | ⟨hfire, hoffset, hr, e⟩ | ⟨hfire, hoffset, e⟩ |
    ⟨hfire, hmode, hword, e⟩ | ⟨hfire, hmode, hword, e⟩ | ⟨hfire, hmode, e⟩ <;> rw [e] at h ⊢
  · cases h
  · exact stepBit_of_confirm hfire hoffset hr
  · exact stepBit_of_wrongOffset hfire hoffset
  · exact stepBit_of_partialWord hfire hmode hword
  · exact stepBit_of_completedWord hfire hmode hword
  · exact stepBit_of_outsideFrame hfire hmode

/-- A releasing bit's timestamp is taken at the cursor after it (40_bit_sync.md R107). -/
theorem stepBit_frameTime_of_release {a : Attrs} {base : Word} {b : Bool} {d : Decoder}
    (h : (stepBit a base b d).2 = true) :
    (stepBit a base b d).1.frameTime = timestamp a base (stepBit a base b d).1.bitPosition := by
  rcases stepBit_cases a base b d with ⟨-, -, -, e⟩ | ⟨-, -, -, e⟩ | ⟨-, -, e⟩ | ⟨-, -, -, e⟩ | ⟨-, -, -, e⟩ |
    ⟨-, -, e⟩ <;> rw [e] at h ⊢
  · rfl
  all_goals cases h

/-- Moving the cursor back by a whole number of ticks and the base on by as many keeps the timestamp
(40_bit_sync.md R108, R114). -/
theorem timestamp_shift {a : Attrs} {base base' pos pos' : Word} {n : Nat}
    (hwhole : n * a.timePerBit.toNat % 2 ^ 32 = 0)
    (hbase : base' = BitVec.ofInt 64 (base.toInt + (n * a.timePerBit.toNat / 2 ^ 32 : Nat)))
    (hpos : pos.toNat = n + pos'.toNat) : timestamp a base pos = timestamp a base' pos' := by
  obtain ⟨ticks, hticks⟩ := Nat.dvd_of_mod_eq_zero hwhole
  have hsplit : ((pos.toNat : Int) - a.frameBits.toNat) * a.timePerBit.toNat =
      ((pos'.toNat : Int) - a.frameBits.toNat) * a.timePerBit.toNat + ticks * 2 ^ 32 := by
    have hticks' : (n : Int) * a.timePerBit.toNat = 2 ^ 32 * ticks := by exact_mod_cast hticks
    rw [hpos]
    push_cast
    linarith
  rw [timestamp_eq_add, timestamp_eq_add, hbase, hsplit, Int.add_mul_ediv_right _ _ (by decide), hticks,
    Nat.mul_div_cancel_left _ (by decide), BitVec.ofInt_add, BitVec.ofInt_add, BitVec.ofInt_toInt]
  ac_rfl

section
variable {p : Params} {a : Attrs} {whole first second : Packet} {m m1 m2 : List Host.Cell} {d d' : Decoder}

/-- A run that releases in the first packet is the whole packet's run. -/
theorem run_whole_of_first_releases (hbound : dataBits p whole < 2 ^ 64) (hle : dataBits p first ≤ dataBits p whole)
    (hbits : ∀ i, i < dataBits p first → bitAt p m i = bitAt p m1 i) (hbase : first.baseTime = whole.baseTime)
    (h : (run p a first m1 d).2 = true) : run p a whole m d = run p a first m1 d := by
  have hfirst : dataBits p first < 2 ^ 64 := by omega
  have hsame : ∀ d : Decoder, d.bitPosition.toNat < dataBits p first →
      runStep p a whole m d = runStep p a first m1 d := fun d hleft => by
    rw [runStep, runStep, hbits _ hleft, hbase]
  induction d using run_turnInduct (a := a) (m := m1) hfirst with
  | noBitsLeft d hend => rw [run_of_noBitsLeft hend] at h; cases h
  | release d hleft hreleased =>
    rw [run_of_release hfirst hleft hreleased, ← hsame d hleft]
    exact run_of_release hbound (by omega) (by rw [hsame d hleft, hreleased])
  | turn d hleft hreleased ih =>
    rw [run_of_noRelease hfirst hleft hreleased] at h ⊢
    rw [run_of_noRelease hbound (by omega) (by rw [hsame d hleft, hreleased]), hsame d hleft]
    exact ih h

/-- A run that uses the first packet up without a release is the beginning of the whole packet's run, whatever the
bases are. -/
theorem run_whole_of_first_ends (hbound : dataBits p whole < 2 ^ 64) (hle : dataBits p first ≤ dataBits p whole)
    (hbits : ∀ i, i < dataBits p first → bitAt p m i = bitAt p m1 i) (h : (run p a first m1 d).2 = false) :
    run p a whole m d = run p a whole m (run p a first m1 d).1 := by
  have hfirst : dataBits p first < 2 ^ 64 := by omega
  induction d using run_turnInduct (a := a) (m := m1) hfirst with
  | noBitsLeft d hend => rw [run_of_noBitsLeft hend]
  | release d hleft hreleased => rw [run_of_release hfirst hleft hreleased] at h; cases h
  | turn d hleft hreleased ih =>
    have hsame : runStep p a whole m d = runStep p a first m1 d := by
      rw [runStep, hbits _ hleft]
      exact stepBit_eq_of_noRelease hreleased
    rw [run_of_noRelease hfirst hleft hreleased] at h ⊢
    rw [run_of_noRelease hbound (by omega) (by rw [hsame, hreleased]), hsame]
    exact ih h

/-- What the runs of the whole and of the second packet have in common when they stop: the release, the stream state,
and the timestamp of a release when the second base continues the first by whole ticks. -/
structure SameRun (a : Attrs) (n : Nat) (base base' : Word) (r r' : Decoder × Bool) : Prop where
  released : r.2 = r'.2
  stream : Decoder.SameStream n r.1 r'.1
  time : r.2 = true → n * a.timePerBit.toNat % 2 ^ 32 = 0 →
    base' = BitVec.ofInt 64 (base.toInt + (n * a.timePerBit.toNat / 2 ^ 32 : Nat)) → r.1.frameTime = r'.1.frameTime

/-- One turn of both runs: they read the same stream bit. -/
theorem sameRun_runStep (hbound : dataBits p whole < 2 ^ 64)
    (hsum : dataBits p whole = dataBits p first + dataBits p second)
    (hbits : ∀ i, i < dataBits p second → bitAt p m (dataBits p first + i) = bitAt p m2 i)
    (hleft : d'.bitPosition.toNat < dataBits p second) (h : Decoder.SameStream (dataBits p first) d d') :
    SameRun a (dataBits p first) whole.baseTime second.baseTime (runStep p a whole m d) (runStep p a second m2 d') := by
  obtain ⟨hpart, hpos⟩ := h
  have hbit : bitAt p m d.bitPosition.toNat = bitAt p m2 d'.bitPosition.toNat := by rw [hpos, hbits _ hleft]
  have hwhole : runStep p a whole m d = stepBit a whole.baseTime (bitAt p m2 d'.bitPosition.toNat) d := by
    rw [runStep, hbit]
  have hnext := runStep_bitPosition_toNat (a := a) (m := m) (d := d) hbound (by omega)
  have hnext' := runStep_bitPosition_toNat (a := a) (m := m2) (by omega) hleft
  have hcursor : (runStep p a whole m d).1.bitPosition.toNat =
      dataBits p first + (runStep p a second m2 d').1.bitPosition.toNat := by omega
  obtain ⟨hstate, hreleased⟩ := stepBit_of_streamPart_eq hpart a whole.baseTime second.baseTime
    (bitAt p m2 d'.bitPosition.toNat)
  rw [← hwhole] at hstate hreleased
  refine ⟨hreleased, ⟨hstate, hcursor⟩, fun hr hticks hbase => ?_⟩
  calc (runStep p a whole m d).1.frameTime
      _ = timestamp a whole.baseTime (runStep p a whole m d).1.bitPosition := stepBit_frameTime_of_release hr
      _ = timestamp a second.baseTime (runStep p a second m2 d').1.bitPosition := timestamp_shift hticks hbase hcursor
      _ = (runStep p a second m2 d').1.frameTime := (stepBit_frameTime_of_release (hreleased ▸ hr)).symm

/-- The runs of the whole and of the second packet from two states the first packet's bits apart, by induction over the
turns of the second packet's run. -/
theorem sameRun_run (hbound : dataBits p whole < 2 ^ 64)
    (hsum : dataBits p whole = dataBits p first + dataBits p second)
    (hbits : ∀ i, i < dataBits p second → bitAt p m (dataBits p first + i) = bitAt p m2 i)
    (h : Decoder.SameStream (dataBits p first) d d') :
    SameRun a (dataBits p first) whole.baseTime second.baseTime (run p a whole m d) (run p a second m2 d') := by
  have hsecond : dataBits p second < 2 ^ 64 := by omega
  induction d' using run_turnInduct (a := a) (m := m2) hsecond generalizing d with
  | noBitsLeft d' hend =>
    have ⟨_, hpos⟩ := h
    rw [run_of_noBitsLeft hend, run_of_noBitsLeft (by omega)]
    exact ⟨rfl, h, fun hr => by cases hr⟩
  | release d' hleft hreleased =>
    have ⟨_, hpos⟩ := h
    have hstep := sameRun_runStep (a := a) (m := m) hbound hsum hbits hleft h
    rw [run_of_release hsecond hleft hreleased, run_of_release hbound (by omega) (hstep.released.trans hreleased)]
    exact ⟨rfl, hstep.stream, fun _ => hstep.time (hstep.released.trans hreleased)⟩
  | turn d' hleft hreleased ih =>
    have ⟨_, hpos⟩ := h
    have hstep := sameRun_runStep (a := a) (m := m) hbound hsum hbits hleft h
    rw [run_of_noRelease hsecond hleft hreleased, run_of_noRelease hbound (by omega) (hstep.released.trans hreleased)]
    exact ih hstep.stream

end

/-- Settles O18, clause by clause; a first packet used up leaves the cursor at its end. -/
theorem splittingAPacketKeepsItsReleases : Obligations.SplittingAPacketKeepsItsReleases := by
  intro p a whole first second m m1 m2 hsum hbound hbits1 hbits2
  have hle : dataBits p first ≤ dataBits p whole := by omega
  refine ⟨fun d h hbase => run_whole_of_first_releases hbound hle hbits1 hbase h, fun d hpos h => ?_, fun d d' h => ?_⟩
  · obtain ⟨-, hend⟩ := run_feeds_bitsLeft (hle.trans_lt hbound) hpos h
    exact ⟨run_whole_of_first_ends hbound hle hbits1 h, rfl, hend⟩
  · have hsame := sameRun_run (a := a) hbound hsum hbits2 h
    exact ⟨hsame.released, hsame.stream, hsame.time⟩

end Sys2Proof.Machine
end

section
/-! SUPPORT. What a completed word is and what its store leaves in the output RAM (41_word_extractor.md R141, R142). -/

namespace Sys2Proof.Machine

variable {a : Attrs} {base : Word} {b : Bool} {d : Decoder}

/-- A completed word is the low `A.word_len` bits of `TEST_WORD` (41_word_extractor.md R141). -/
theorem getLsbD_completedWord (hlen : a.wordLen.toNat ≤ 64) (d : Decoder) (i : Nat) :
    (completedWord a d).getLsbD i = (decide (i < a.wordLen.toNat) && d.testWord.getLsbD i) := by
  rw [completedWord, BitVec.getLsbD_and, getLsbD_ones _ _ hlen, Bool.and_comm]

theorem stepBit_wordAt_of_completedWord (hfire : syncTest a (loadBit b d) = false) (hmode : d.saveMode = .collecting)
    (hword : d.dwBitCount + 1 = a.wordLen) (j : Nat) :
    (stepBit a base b d).1.wordAt j = if j = wordSlot d then completedWord a (loadBit b d) else d.wordAt j := by
  rw [stepBit_of_completedWord hfire hmode hword]
  exact OutRam.read_write ..

theorem stepBit_errAt_of_completedWord (hfire : syncTest a (loadBit b d) = false) (hmode : d.saveMode = .collecting)
    (hword : d.dwBitCount + 1 = a.wordLen) (j : Nat) :
    (stepBit a base b d).1.errAt j =
      if j = wordSlot d then parityError a.parityMode (completedWord a (loadBit b d)) else d.errAt j := by
  rw [stepBit_of_completedWord hfire hmode hword]
  exact OutRam.read_write ..

end Sys2Proof.Machine
end

section
/-! PROOFS. FEED_BIT while COLLECTING (41_word_extractor.md R140 to R143, R147). -/

namespace Sys2Proof.Machine

/-- Settles O26. -/
theorem feedBitCollectsABit : Obligations.FeedBitCollectsABit := by
  intro s a b hfatal hsetup hset hfire hmode hword
  rw [exec_feedBit_of_ready hfatal hsetup hset, feedStep_of_stepBit (stepBit_of_partialWord hfire hmode hword)]
  rfl

/-- Settles O27: outside the output RAM the equation of STEP gives the state, inside it the two read rules do. -/
theorem feedBitStoresACompletedWord : Obligations.FeedBitStoresACompletedWord := by
  intro s a b hfatal hsetup hset hlen hfire hmode hword
  have hwordAt := stepBit_wordAt_of_completedWord (base := s.pkt.baseTime) hfire hmode hword
  have herrAt := stepBit_errAt_of_completedWord (base := s.pkt.baseTime) hfire hmode hword
  have hslotWord := (hwordAt (wordSlot s.dec)).trans (if_pos rfl)
  have hslotErr := (herrAt (wordSlot s.dec)).trans (if_pos rfl)
  refine ⟨feedStep a b s, exec_feedBit_of_ready hfatal hsetup hset b, ?_, fun i => ?_, ?_, fun j hj => ⟨?_, ?_⟩⟩
  · rw [feedStep_of_stepBit (stepBit_of_completedWord hfire hmode hword), ← hmode]
    rfl
  · exact (congrArg (·.getLsbD i) hslotWord).trans (getLsbD_completedWord hlen _ i)
  · exact hslotErr.trans (congrArg (parityError a.parityMode) hslotWord.symm)
  · exact (hwordAt j).trans (if_neg hj)
  · exact (herrAt j).trans (if_neg hj)

end Sys2Proof.Machine
end

section
/-! PROOFS. A data word is the stream bits fed for it (41_word_extractor.md R149). -/

namespace Sys2Proof.Machine

variable {a : Attrs} {base : Word}

/-- One bit more is one binary digit more, in the lowest place. -/
theorem bitsNumber_concat (bs : List Bool) (b : Bool) : bitsNumber (bs ++ [b]) = Nat.bit b (bitsNumber bs) := by
  rw [Nat.bit_val, bitsNumber, List.foldl_append]
  rfl

/-- Bit `k` of the number is the bit fed `k` places before the last. -/
theorem testBit_bitsNumber (bs : List Bool) (k : Nat) :
    (bitsNumber bs).testBit k = (decide (k < bs.length) && bs.getD (bs.length - 1 - k) false) := by
  induction bs using List.reverseRecOn generalizing k with
  | nil => simp [bitsNumber]
  | append_singleton bs b ih =>
    rw [bitsNumber_concat]
    cases k with
    | zero => simp
    | succ k =>
      rw [Nat.testBit_bit_succ, ih]
      by_cases hk : k < bs.length
      · have hidx : (bs ++ [b]).length - 1 - (k + 1) = bs.length - 1 - k := by simp; omega
        rw [hidx, List.getD_append _ _ _ _ (by omega)]
        simp
      · simp [hk]

/-- Where `n` bits that complete no word and fire no sync leave the extractor: the word goes on, nothing is stored. -/
structure CollectedMore (n : Nat) (d d' : Decoder) : Prop where
  saveMode : d'.saveMode = .collecting
  dwBitCount : d'.dwBitCount.toNat = d.dwBitCount.toNat + n
  mfWordCount : d'.mfWordCount = d.mfWordCount
  outWord : d'.outWord = d.outWord

theorem stepBit_collectsOne {b : Bool} {d : Decoder} (hfire : syncTest a (loadBit b d) = false)
    (hmode : d.saveMode = .collecting) (hroom : d.dwBitCount.toNat + 1 < a.wordLen.toNat) :
    CollectedMore 1 d (stepBit a base b d).1 := by
  have hsucc : (d.dwBitCount + 1).toNat = d.dwBitCount.toNat + 1 :=
    BitVec.toNat_add_of_lt (hroom.trans a.wordLen.isLt)
  rw [stepBit_of_partialWord hfire hmode fun e => by rw [← e] at hroom; omega]
  exact ⟨hmode, hsucc, rfl, rfl⟩

/-- Bits that stay short of the word's end are only collected (41_word_extractor.md R140). -/
theorem feedAll_collects (bs : List Bool) {d : Decoder} (hmode : d.saveMode = .collecting)
    (hroom : d.dwBitCount.toNat + bs.length < a.wordLen.toNat) (hquiet : anyFire a base bs d = false) :
    CollectedMore bs.length d (feedAll a base bs d) := by
  induction bs generalizing d with
  | nil => exact ⟨hmode, rfl, rfl, rfl⟩
  | cons b bs ih =>
    rw [List.length_cons] at hroom
    obtain ⟨hfire, hrest⟩ := Bool.or_eq_false_iff.1 hquiet
    have hone := stepBit_collectsOne (base := base) hfire hmode (by omega)
    have hcount := hone.dwBitCount
    have hmore := ih hone.saveMode (by omega) hrest
    have hcount' := hmore.dwBitCount
    exact ⟨hmore.saveMode, by rw [List.length_cons, feedAll]; omega, hmore.mfWordCount.trans hone.mfWordCount,
      hmore.outWord.trans hone.outWord⟩

/-- A word completed by the last of `A.word_len` bits holds exactly these bits: `TEST_WORD` holds the last 64 fed. -/
theorem completedWord_eq_bitsNumber {bs : List Bool} {d d' : Decoder} (hlen : bs.length = a.wordLen.toNat)
    (hmax : a.wordLen.toNat ≤ 64) (hfed : d'.testWord = (feedAll a base bs d).testWord) :
    completedWord a d' = BitVec.ofNat 64 (bitsNumber bs) := by
  refine BitVec.eq_of_getLsbD_eq fun i hi => ?_
  rw [getLsbD_completedWord hmax, hfed, testWordHoldsTheLastBitsFed a base bs d i hi, BitVec.getLsbD_ofNat,
    testBit_bitsNumber, ← hlen]
  by_cases hin : i < bs.length <;> simp [hin, hi]

/-- Of the bits of a whole word all but the last are collected, and the last completes it (41_word_extractor.md
R140). -/
theorem exists_completingBit {bs : List Bool} {d : Decoder} (hmin : 1 ≤ a.wordLen.toNat)
    (hlen : bs.length = a.wordLen.toNat) (hmode : d.saveMode = .collecting) (hstart : d.dwBitCount = 0)
    (hquiet : anyFire a base bs d = false) :
    ∃ init b, bs = init ++ [b] ∧ CollectedMore init.length d (feedAll a base init d) ∧
      syncTest a (loadBit b (feedAll a base init d)) = false ∧ (feedAll a base init d).dwBitCount + 1 = a.wordLen := by
  obtain ⟨init, b, rfl⟩ := (List.eq_nil_or_concat' bs).resolve_left (List.ne_nil_of_length_pos (hlen ▸ hmin))
  rw [List.length_append, List.length_singleton] at hlen
  rw [anyFire_append, Bool.or_eq_false_iff] at hquiet
  obtain ⟨hinit, hlast⟩ := hquiet
  have hzero : d.dwBitCount.toNat = 0 := by rw [hstart]; rfl
  have hmore := feedAll_collects init hmode (by omega) hinit
  have hcount : (feedAll a base init d).dwBitCount.toNat + 1 = a.wordLen.toNat := by rw [hmore.dwBitCount]; omega
  refine ⟨init, b, rfl, hmore, (Bool.or_eq_false_iff.1 hlast).1, BitVec.eq_of_toNat_eq ?_⟩
  exact (BitVec.toNat_add_of_lt (hcount ▸ a.wordLen.isLt)).trans hcount

/-- Settles O30: what the last bit stores is the word's bits, and the bits before it store nothing. -/
theorem dataWordsAreTheStreamBits : Obligations.DataWordsAreTheStreamBits := by
  intro a base bs d hmin hmax hlen hmode hstart hquiet
  obtain ⟨init, b, rfl, hmore, hfire, hword⟩ := exists_completingBit hmin hlen hmode hstart hquiet
  have hcompleted : completedWord a (loadBit b (feedAll a base init d)) = BitVec.ofNat 64 (bitsNumber (init ++ [b])) :=
    completedWord_eq_bitsNumber hlen hmax (by rw [feedAll_concat, stepBit_testWord, loadBit_testWord])
  have hwordAt := stepBit_wordAt_of_completedWord (base := base) hfire hmore.saveMode hword
  rw [wordSlot, hmore.mfWordCount, hcompleted] at hwordAt
  rw [feedAll_concat]
  refine ⟨(hwordAt _).trans (if_pos rfl), fun j hj => ?_, ?_⟩
  · rw [hwordAt j, if_neg hj, Decoder.wordAt, hmore.outWord, ← Decoder.wordAt]
  · rw [stepBit_of_completedWord hfire hmore.saveMode hword]
    exact ⟨congrArg (· + 1) hmore.mfWordCount, rfl⟩

end Sys2Proof.Machine
end

section
/-! PROOFS. The parity flag (41_word_extractor.md R144). -/

namespace Sys2Proof.Machine

/-- The places of a word's set bits. -/
def setBits (w : Word) : Finset (Fin 64) := Finset.univ.filter fun i => w.getLsbD i = true

theorem mem_setBits {w : Word} {i : Fin 64} : i ∈ setBits w ↔ w.getLsbD i = true :=
  Finset.mem_filter_univ i

theorem popcount_eq_card_setBits (w : Word) : popcount w = (setBits w).card := by
  rw [popcount, ← List.map_coe_finRange_eq_range, List.countP_map, setBits, ← List.toFinset_finRange,
    (List.nodup_finRange 64).card_eq_countP]
  simp [Function.comp_def]

/-- Flipping a clear bit adds its place to the set ones. -/
theorem setBits_xor_twoPow {w : Word} {i : Fin 64} (hclear : w.getLsbD i = false) :
    setBits (w ^^^ BitVec.twoPow 64 i) = insert i (setBits w) := by
  ext j
  rw [Finset.mem_insert, mem_setBits, mem_setBits, BitVec.getLsbD_xor, BitVec.getLsbD_twoPow]
  by_cases hj : j = i
  · rw [hj, hclear]
    simp
  · simp [hj, Fin.val_inj, Ne.symm hj]

theorem popcount_xor_twoPow_of_clear {w : Word} {i : Nat} (hi : i < 64) (hclear : w.getLsbD i = false) :
    popcount (w ^^^ BitVec.twoPow 64 i) = popcount w + 1 := by
  rw [popcount_eq_card_setBits, popcount_eq_card_setBits, setBits_xor_twoPow (i := ⟨i, hi⟩) hclear,
    Finset.card_insert_of_notMem (mt mem_setBits.1 (Bool.eq_false_iff.1 hclear))]

/-- Flipping one bit changes the number of set bits by one: up from a clear bit, and down from a set one, since the
second flip takes the word back. -/
theorem popcount_xor_twoPow {w : Word} {i : Nat} (hi : i < 64) :
    popcount (w ^^^ BitVec.twoPow 64 i) = popcount w + 1 ∨ popcount w = popcount (w ^^^ BitVec.twoPow 64 i) + 1 := by
  cases hbit : w.getLsbD i
  · exact .inl (popcount_xor_twoPow_of_clear hi hbit)
  · have hback := popcount_xor_twoPow_of_clear (w := w ^^^ BitVec.twoPow 64 i) hi (by simp [hbit, hi])
    rw [BitVec.xor_assoc, BitVec.xor_self, BitVec.xor_zero] at hback
    exact .inr hback

/-- Settles O35: the flag is a remainder of the number of set bits, which one flip moves by one. -/
theorem parityFlagCountsSetBits : Obligations.ParityFlagCountsSetBits := by
  intro w
  have hcount : popcount w = (Finset.univ.filter fun i : Fin 64 => w.getLsbD i = true).card :=
    popcount_eq_card_setBits w
  refine ⟨rfl, ?_, ?_, fun mode i hi hmode => ?_⟩
  · rw [← hcount]
    exact decide_eq_true_iff
  · rw [← hcount]
    exact decide_eq_true_iff
  · have hflip := popcount_xor_twoPow (w := w) hi
    cases mode with
    | none => exact absurd rfl hmode
    | odd => simp only [parityError, ← decide_not, decide_eq_decide]; omega
    | even => simp only [parityError, ← decide_not, decide_eq_decide]; omega

end Sys2Proof.Machine
end

section
/-! SUPPORT. The swaps as permutations of the byte offsets (42_byte_swap.md R160, R161): after a swap each offset reads
what its mate held before, and the algebra of R165 is the algebra of the mates. -/

namespace Sys2Proof.Machine

variable {base top b : Nat}

/-- The offset whose byte SWAP16 puts at `b`, when the data region is `base` to `top - 1` (42_byte_swap.md R160). -/
def pairMate (base top b : Nat) : Nat :=
  if base ≤ b ∧ b < top then if (b - base) % 2 = 0 then b + 1 else b - 1 else b

/-- The offset whose byte SWAP32 puts at `b`, when the data region is `base` to `top - 1` (42_byte_swap.md R161). -/
def quadMate (base top b : Nat) : Nat :=
  if base ≤ b ∧ b < top then if (b - base) % 4 < 2 then b + 2 else b - 2 else b

theorem pairMate_of_outside (h : b < base ∨ top ≤ b) : pairMate base top b = b := if_neg (by omega)

theorem quadMate_of_outside (h : b < base ∨ top ≤ b) : quadMate base top b = b := if_neg (by omega)

/-- Place `j` of a 16-bit unit. -/
theorem pairMate_pair {k j : Nat} (hlen : (top - base) % 2 = 0) (hk : 2 * k < top - base) (hj : j < 2) :
    pairMate base top (base + 2 * k + j) = base + 2 * k + (1 - j) := by
  rw [pairMate, if_pos (by omega)]
  split_ifs <;> omega

/-- Place `j` of a 32-bit unit: each half of the unit is a 16-bit unit. -/
theorem pairMate_quad {k j : Nat} (hlen : (top - base) % 4 = 0) (hk : 4 * k < top - base) (hj : j < 4) :
    pairMate base top (base + 4 * k + j) = base + 4 * k + (j / 2 * 2 + (1 - j % 2)) := by
  rw [pairMate, if_pos (by omega)]
  split_ifs <;> omega

/-- Place `j` of a 32-bit unit. -/
theorem quadMate_quad {k j : Nat} (hlen : (top - base) % 4 = 0) (hk : 4 * k < top - base) (hj : j < 4) :
    quadMate base top (base + 4 * k + j) = base + 4 * k + (j + 2) % 4 := by
  rw [quadMate, if_pos (by omega)]
  split_ifs <;> omega

/-- Every offset is outside the region or a place of one of its units. -/
theorem offset_cases {unit : Nat} (hunit : 0 < unit) (base top b : Nat) :
    (b < base ∨ top ≤ b) ∨ ∃ k j, unit * k < top - base ∧ j < unit ∧ b = base + unit * k + j := by
  by_cases hout : b < base ∨ top ≤ b
  · exact .inl hout
  · have hsplit := Nat.div_add_mod (b - base) unit
    exact .inr ⟨(b - base) / unit, (b - base) % unit, by omega, Nat.mod_lt _ hunit, by omega⟩

theorem pairMate_involutive (hlen : (top - base) % 2 = 0) : (pairMate base top).Involutive := by
  intro b
  rcases offset_cases two_pos base top b with hout | ⟨k, j, hk, hj, rfl⟩
  · rw [pairMate_of_outside hout, pairMate_of_outside hout]
  · rw [pairMate_pair hlen hk hj, pairMate_pair hlen hk (by omega)]
    omega

theorem quadMate_involutive (hlen : (top - base) % 4 = 0) : (quadMate base top).Involutive := by
  intro b
  rcases offset_cases four_pos base top b with hout | ⟨k, j, hk, hj, rfl⟩
  · rw [quadMate_of_outside hout, quadMate_of_outside hout]
  · rw [quadMate_quad hlen hk hj, quadMate_quad hlen hk (by omega)]
    omega

/-- The two permutations together reverse a 32-bit unit (42_byte_swap.md R165). -/
theorem pairMate_quadMate_quad {k j : Nat} (hlen : (top - base) % 4 = 0) (hk : 4 * k < top - base) (hj : j < 4) :
    pairMate base top (quadMate base top (base + 4 * k + j)) = base + 4 * k + (3 - j) := by
  rw [quadMate_quad hlen hk hj, pairMate_quad hlen hk (by omega)]
  omega

theorem pairMate_quadMate_comm (hlen : (top - base) % 4 = 0) :
    Function.Commute (pairMate base top) (quadMate base top) := by
  intro b
  rcases offset_cases four_pos base top b with hout | ⟨k, j, hk, hj, rfl⟩
  · rw [quadMate_of_outside hout, pairMate_of_outside hout, quadMate_of_outside hout]
  · rw [pairMate_quadMate_quad hlen hk hj, pairMate_quad hlen hk hj, quadMate_quad hlen hk (by omega)]
    omega

theorem read_swapPairs_region (hlen : (top - base) % 2 = 0) (m : List Host.Cell) (b : Nat) :
    Memory.read (swapPairs base ((top - base) / 2) m) b = Memory.read m (pairMate base top b) := by
  have hregion : (base ≤ b ∧ b < base + 2 * ((top - base) / 2)) ↔ base ≤ b ∧ b < top := by omega
  simp only [read_swapPairs, hregion, pairMate, apply_ite (Memory.read m)]

theorem read_swapQuads_region (hlen : (top - base) % 4 = 0) (m : List Host.Cell) (b : Nat) :
    Memory.read (swapQuads base ((top - base) / 4) m) b = Memory.read m (quadMate base top b) := by
  have hregion : (base ≤ b ∧ b < base + 4 * ((top - base) / 4)) ↔ base ≤ b ∧ b < top := by omega
  simp only [read_swapQuads, hregion, quadMate, apply_ite (Memory.read m)]

/-- SWAP16 on a passing length. -/
theorem exists_swap16 {p : Params} {len : Nat} (hlen : (len - p.csdwBytes) % 2 = 0) (m : List Host.Cell) :
    ∃ m', swap16 p len m = .ok m' ∧ ∀ b, Memory.read m' b = Memory.read m (pairMate p.csdwBytes len b) := by
  rcases swap16_cases p len m with ⟨-, hodd⟩ | ⟨hok, -⟩
  · exact absurd hlen hodd
  · exact ⟨_, hok, read_swapPairs_region hlen m⟩

/-- SWAP32 on a passing length. -/
theorem exists_swap32 {p : Params} {len : Nat} (hlen : (len - p.csdwBytes) % 4 = 0) (m : List Host.Cell) :
    ∃ m', swap32 p len m = .ok m' ∧ ∀ b, Memory.read m' b = Memory.read m (quadMate p.csdwBytes len b) := by
  rcases swap32_cases p len m with ⟨-, hbad⟩ | ⟨hok, -⟩
  · exact absurd hlen hbad
  · exact ⟨_, hok, read_swapQuads_region hlen m⟩

end Sys2Proof.Machine
end

section
/-! PROOFS. The algebra of the swaps (42_byte_swap.md R165). -/

namespace Sys2Proof.Machine

/-- Settles O39: each clause is the matching fact about the mates. -/
theorem swapsAreCommutingInvolutions : Obligations.SwapsAreCommutingInvolutions := by
  intro p len m
  refine ⟨fun hlen => ?_, fun hlen => ?_, fun hlen => ?_⟩
  · obtain ⟨m1, h1, hread1⟩ := exists_swap16 hlen m
    obtain ⟨m2, h2, hread2⟩ := exists_swap16 hlen m1
    exact ⟨m1, m2, h1, h2, fun b => by rw [hread2, hread1, pairMate_involutive hlen]⟩
  · obtain ⟨m1, h1, hread1⟩ := exists_swap32 hlen m
    obtain ⟨m2, h2, hread2⟩ := exists_swap32 hlen m1
    exact ⟨m1, m2, h1, h2, fun b => by rw [hread2, hread1, quadMate_involutive hlen]⟩
  · have heven : (len - p.csdwBytes) % 2 = 0 := by omega
    obtain ⟨m1, h1, hread1⟩ := exists_swap16 heven m
    obtain ⟨m2, h2, hread2⟩ := exists_swap32 hlen m1
    obtain ⟨n1, h3, hread3⟩ := exists_swap32 hlen m
    obtain ⟨n2, h4, hread4⟩ := exists_swap16 heven n1
    refine ⟨m1, m2, n1, n2, h1, h2, h3, h4, fun b => ?_, fun k j hk hj => ?_⟩
    · rw [hread2, hread1, hread4, hread3, pairMate_quadMate_comm hlen]
    · rw [hread2, hread1, pairMate_quadMate_quad hlen hk hj]

end Sys2Proof.Machine
end

section
/-! PROOFS. The standalone swaps (43_commands.md R188 to R190). -/

namespace Sys2Proof.Machine

variable {swap : Params → Nat → List Host.Cell → Except ResultCode (List Host.Cell)} {s : State}

theorem exec_swapBytes (s : State) : exec .swapBytes s = .next (swapCommand swap16 s) := rfl

theorem exec_swapShorts (s : State) : exec .swapShorts s = .next (swapCommand swap32 s) := rfl

theorem swapCommand_of_refused {c : ResultCode} (h : lengthRefusal s.params s.packet.len.toNat = some c) :
    swapCommand swap s = s.complete c := by
  rw [swapCommand, h]

theorem swapCommand_of_error {c : ResultCode} (hlen : lengthRefusal s.params s.packet.len.toNat = none)
    (h : swap s.params s.packet.len.toNat s.payload = .error c) : swapCommand swap s = s.raise c := by
  simp only [swapCommand, hlen, h]

theorem swapCommand_of_ok {m : List Host.Cell} (hlen : lengthRefusal s.params s.packet.len.toNat = none)
    (h : swap s.params s.packet.len.toNat s.payload = .ok m) : swapCommand swap s = (s.withPayload m).complete .ok := by
  simp only [swapCommand, hlen, h]

/-- The refusals of a standalone swap that checks for a region of whole units. -/
theorem swapCommand_refusals {unit : Nat}
    (hswap : ∀ p len m, (len - p.csdwBytes) % unit ≠ 0 → swap p len m = .error .invalidData) (s : State) :
    (s.packet.len.toNat < s.params.csdwBytes → swapCommand swap s = s.complete .noMoreData) ∧
    (s.params.csdwBytes ≤ s.packet.len.toNat → s.params.maxPayloadBytes < s.packet.len.toNat →
      swapCommand swap s = s.complete .bufferOverrun) ∧
    (s.params.csdwBytes ≤ s.packet.len.toNat → s.packet.len.toNat ≤ s.params.maxPayloadBytes →
      (s.packet.len.toNat - s.params.csdwBytes) % unit ≠ 0 → swapCommand swap s = s.complete .invalidData) := by
  rcases lengthRefusal_cases s.params s.packet.len.toNat with ⟨hshort, e⟩ | ⟨hmin, hlong, e⟩ | ⟨hmin, hmax, e⟩
  · exact ⟨fun _ => swapCommand_of_refused e, fun _ _ => by omega, fun _ _ => by omega⟩
  · exact ⟨fun _ => by omega, fun _ _ => swapCommand_of_refused e, fun _ _ => by omega⟩
  · exact ⟨fun _ => by omega, fun _ _ => by omega, fun _ _ hunit => swapCommand_of_error e (hswap _ _ _ hunit)⟩

/-- Settles O38: both swaps refuse in the same way, each for its own unit. -/
theorem swapsRefuseBadLengths : Obligations.SwapsRefuseBadLengths := by
  rintro i unit (⟨rfl, rfl⟩ | ⟨rfl, rfl⟩) s
  · simp only [exec_swapBytes, Host.Outcome.next.injEq]
    exact swapCommand_refusals (fun _ _ _ hunit => if_pos hunit) s
  · simp only [exec_swapShorts, Host.Outcome.next.injEq]
    exact swapCommand_refusals (fun _ _ _ hunit => if_pos hunit) s

/-- Settles O36. -/
theorem swapBytesExchangesBytePairs : Obligations.SwapBytesExchangesBytePairs := by
  intro s hmin hmax hlen
  obtain ⟨m, hm, hread⟩ := exists_swap16 hlen s.payload
  have hcommand := swapCommand_of_ok (lengthRefusal_eq_none.2 ⟨hmin, hmax⟩) hm
  refine ⟨(s.withPayload m).complete .ok, by rw [exec_swapBytes, hcommand], rfl, fun k hk => ⟨?_, ?_⟩,
    fun b hout => ?_⟩
  · exact (hread _).trans (congrArg _ (pairMate_pair hlen hk two_pos))
  · exact (hread _).trans (congrArg _ (pairMate_pair hlen hk one_lt_two))
  · exact (hread _).trans (congrArg _ (pairMate_of_outside hout))

/-- Settles O37. -/
theorem swapShortsExchangesHalves : Obligations.SwapShortsExchangesHalves := by
  intro s hmin hmax hlen
  obtain ⟨m, hm, hread⟩ := exists_swap32 hlen s.payload
  have hcommand := swapCommand_of_ok (lengthRefusal_eq_none.2 ⟨hmin, hmax⟩) hm
  refine ⟨(s.withPayload m).complete .ok, by rw [exec_swapShorts, hcommand], rfl, fun k j hk hj => ?_,
    fun b hout => ?_⟩
  · exact (hread _).trans (congrArg _ (quadMate_quad hlen hk hj))
  · exact (hread _).trans (congrArg _ (quadMate_of_outside hout))

end Sys2Proof.Machine
end

section
/-! PROOFS. The payload after DECODE_FIRST's byte-order fixup (42_byte_swap.md R164, 43_commands.md R185 step 9). -/

namespace Sys2Proof.Machine

variable {s : State} {a : Attrs} {m : List Host.Cell}

/-- The state at the end of step 7 of DECODE_FIRST, when nothing refuses (43_commands.md R185): the packet registers
latched, and setup when it was needed. -/
def packetAccepted (s : State) : State :=
  if s.needsSetup then s.dropPacket.latchPacket.applySetup else s.dropPacket.latchPacket

@[simp] theorem packetAccepted_params (s : State) : (packetAccepted s).params = s.params := by
  unfold packetAccepted; split_ifs <;> rfl

@[simp] theorem packetAccepted_pkt (s : State) : (packetAccepted s).pkt = s.packet := by
  unfold packetAccepted; split_ifs <;> rfl

@[simp] theorem packetAccepted_payload (s : State) : (packetAccepted s).payload = s.payload := by
  unfold packetAccepted; split_ifs <;> rfl

theorem setupIfNeeded_latched (hfit : s.needsSetup = true → a.frameWords.toNat ≤ s.params.maxFrameWords) :
    setupIfNeeded a s.dropPacket.latchPacket = .ok (packetAccepted s) := by
  by_cases hneeds : s.needsSetup = true
  · rcases setupCore_cases a s.dropPacket.latchPacket with ⟨hlarge, -⟩ | ⟨-, e⟩
    · exact absurd (hfit hneeds) (Nat.not_le.2 hlarge)
    · simp [setupIfNeeded, packetAccepted, hneeds, e]
  · simp [setupIfNeeded, packetAccepted, hneeds]

/-- DECODE_FIRST of an accepted packet ends in RUN on the fixup's payload (43_commands.md R185 steps 9 to 11). -/
theorem exec_decodeFirst_of_accepted (hfatal : s.fatal = none) (hset : s.attrs = some a)
    (hmin : s.params.csdwBytes ≤ s.packet.len.toNat) (hmax : s.packet.len.toNat ≤ s.params.maxPayloadBytes)
    (hfit : s.needsSetup = true → a.frameWords.toNat ≤ s.params.maxFrameWords) (hmode : s.packet.mode.getLsbD 0 = true)
    (hfixup : byteSwapFixup s.params a s.packet s.payload = .ok m) :
    exec .decodeFirst s = .next (runPacket a ((packetAccepted s).withPayload m).startPacket) := by
  have hlen : lengthRefusal s.params s.packet.len.toNat = none := lengthRefusal_eq_none.2 ⟨hmin, hmax⟩
  simp [exec, execDecodeFirst, decodeChecked, decodeLatched, Packet.throughput, setupIfNeeded_latched hfit, hfatal,
    hset, hlen, hmode, hfixup]

theorem byteSwapFixup_of_noSwap {p : Params} {pkt : Packet} (hswap : a.byteSwap = false) :
    byteSwapFixup p a pkt m = .ok m := by
  simp [byteSwapFixup, hswap]

/-- The fixup of 16-bit units. -/
theorem exists_byteSwapFixup_pairs {p : Params} {pkt : Packet} (hswap : a.byteSwap = true)
    (halign : pkt.align32 = false) (hlen : (pkt.len.toNat - p.csdwBytes) % 2 = 0) (m : List Host.Cell) :
    ∃ m', byteSwapFixup p a pkt m = .ok m' ∧
      ∀ b, Memory.read m' b = Memory.read m (pairMate p.csdwBytes pkt.len.toNat b) := by
  obtain ⟨m', hm, hread⟩ := exists_swap16 hlen m
  exact ⟨m', by simp [byteSwapFixup, hswap, halign, hlen, hm], hread⟩

/-- The fixup of 32-bit units: SWAP16, then SWAP32. -/
theorem exists_byteSwapFixup_quads {p : Params} {pkt : Packet} (hswap : a.byteSwap = true)
    (halign : pkt.align32 = true) (hlen : (pkt.len.toNat - p.csdwBytes) % 4 = 0) (m : List Host.Cell) :
    ∃ m', byteSwapFixup p a pkt m = .ok m' ∧ ∀ b, Memory.read m' b =
      Memory.read m (pairMate p.csdwBytes pkt.len.toNat (quadMate p.csdwBytes pkt.len.toNat b)) := by
  have heven : (pkt.len.toNat - p.csdwBytes) % 2 = 0 := by omega
  obtain ⟨m1, hm1, hread1⟩ := exists_swap16 heven m
  obtain ⟨m2, hm2, hread2⟩ := exists_swap32 hlen m1
  exact ⟨m2, by simp [byteSwapFixup, hswap, halign, heven, hlen, hm1, hm2], fun b => by rw [hread2, hread1]⟩

theorem runPacket_payload (a : Attrs) (s : State) : (runPacket a s).payload = s.payload := rfl

/-- Settles O13: RUN leaves the fixup's payload as it is, and that payload reads through the mates. -/
theorem decodeFirstSwapsTheDataRegion : Obligations.DecodeFirstSwapsTheDataRegion := by
  intro s a hfatal hset hmin hmax hfit hmode
  have hexec : ∀ m, byteSwapFixup s.params a s.packet s.payload = .ok m →
      ∃ t, exec .decodeFirst s = .next t ∧ t.payload = m := fun m hfixup =>
    ⟨_, exec_decodeFirst_of_accepted hfatal hset hmin hmax hfit hmode hfixup, runPacket_payload ..⟩
  refine ⟨fun hswap => hexec _ (byteSwapFixup_of_noSwap hswap), fun hswap halign hlen => ?_,
    fun hswap halign hlen => ?_⟩
  · obtain ⟨m, hfixup, hread⟩ := exists_byteSwapFixup_pairs hswap halign hlen s.payload
    obtain ⟨t, ht, rfl⟩ := hexec m hfixup
    exact ⟨t, ht, fun b => by rw [hread, pairMate, apply_ite (Memory.read s.payload)]⟩
  · obtain ⟨m, hfixup, hread⟩ := exists_byteSwapFixup_quads hswap halign hlen s.payload
    obtain ⟨t, ht, rfl⟩ := hexec m hfixup
    refine ⟨t, ht, fun b => (hread b).trans ?_⟩
    rcases offset_cases four_pos s.params.csdwBytes s.packet.len.toNat b with hout | ⟨k, j, hk, hj, rfl⟩
    · rw [quadMate_of_outside hout, pairMate_of_outside hout, if_neg (by omega)]
    · rw [pairMate_quadMate_quad hlen hk hj, if_pos (by omega)]
      congr 1
      omega

end Sys2Proof.Machine
end

section
/-! PROOFS. The bytes outside the data region (42_byte_swap.md R163). -/

namespace Sys2Proof.Machine

variable {s t : State} {p : Params} {m m' : List Host.Cell} {len b : Nat}

theorem read_swap16_outside (h : swap16 p len m = .ok m') (hout : b < p.csdwBytes ∨ len ≤ b) :
    Memory.read m' b = Memory.read m b := by
  rcases swap16_cases p len m with ⟨e, -⟩ | ⟨e, hlen⟩ <;> cases e.symm.trans h
  rw [read_swapPairs_region hlen, pairMate_of_outside hout]

theorem read_swap32_outside (h : swap32 p len m = .ok m') (hout : b < p.csdwBytes ∨ len ≤ b) :
    Memory.read m' b = Memory.read m b := by
  rcases swap32_cases p len m with ⟨e, -⟩ | ⟨e, hlen⟩ <;> cases e.symm.trans h
  rw [read_swapQuads_region hlen, quadMate_of_outside hout]

theorem read_byteSwapFixup_outside {a : Attrs} {pkt : Packet} (h : byteSwapFixup p a pkt m = .ok m')
    (hout : b < p.csdwBytes ∨ pkt.len.toNat ≤ b) : Memory.read m' b = Memory.read m b := by
  rcases byteSwapFixup_cases p a pkt m with ⟨-, e⟩ | ⟨-, -, e⟩ | ⟨-, -, hlen, e⟩ | ⟨-, -, hlen, e⟩ <;>
    cases e.symm.trans h
  · rfl
  · rw [read_swapPairs_region hlen, pairMate_of_outside hout]
  · rw [read_swapQuads_region hlen, quadMate_of_outside hout, read_swapPairs_region (by omega),
      pairMate_of_outside hout]

theorem read_swapCommand_outside {swap : Params → Nat → List Host.Cell → Except ResultCode (List Host.Cell)}
    (hswap : ∀ m, swap s.params s.packet.len.toNat s.payload = .ok m → Memory.read m b = Memory.read s.payload b) :
    Memory.read (swapCommand swap s).payload b = Memory.read s.payload b := by
  rcases swapCommand_cases swap s with ⟨c, -, e⟩ | ⟨-, ⟨c, -, e⟩ | ⟨m, hm, e⟩⟩ <;> rw [e]
  · rfl
  · rfl
  · exact hswap m hm

/-- DECODE_FIRST leaves the payload as it is, or as the fixup makes it. -/
theorem execDecodeFirst_payload (h : execDecodeFirst s = .next t) :
    t.payload = s.payload ∨ ∃ a, byteSwapFixup s.params a s.packet s.payload = .ok t.payload := by
  rcases execDecodeFirst_next h with ⟨c, rfl⟩ | ⟨c, rfl⟩ | ⟨a, -, rfl⟩
  · exact .inl rfl
  · exact .inl rfl
  · rcases decodeChecked_cases a s.dropPacket.latchPacket with ⟨c, e⟩ | ⟨c, e⟩ | ⟨u, -, hu, e⟩ <;> rw [e]
    · exact .inl rfl
    · exact .inl rfl
    · have hsetup : u.params = s.params ∧ u.pkt = s.packet ∧ u.payload = s.payload := by
        rcases setupIfNeeded_ok hu with ⟨-, rfl⟩ | ⟨-, rfl⟩ <;> exact ⟨rfl, rfl, rfl⟩
      obtain ⟨hparams, hpkt, hpayload⟩ := hsetup
      rw [← hparams, ← hpkt, ← hpayload]
      rcases decodeLatched_cases a u with ⟨c, e⟩ | ⟨m, hm, e⟩ <;> rw [e]
      · exact .inl rfl
      · exact .inr ⟨a, hm⟩

/-- Settles O45: DECODE_FIRST and the swaps are the only writers of the payload RAM, each by swaps of the region. -/
theorem onlyDataRegionBytesAreSwapped : Obligations.OnlyDataRegionBytesAreSwapped := by
  intro i s t h b hout
  obtain ⟨-, -, -, -, -, -, -, -, -, hkeep, -⟩ := eachRegisterGroupHasItsWriters i s t h
  cases i with
  | decodeFirst =>
    rcases execDecodeFirst_payload h with e | ⟨a, hfixup⟩
    · rw [e]
    · exact read_byteSwapFixup_outside hfixup hout
  | swapBytes => cases h; exact read_swapCommand_outside fun _ hm => read_swap16_outside hm hout
  | swapShorts => cases h; exact read_swapCommand_outside fun _ hm => read_swap32_outside hm hout
  | nop | configure | setup | decodeNext | feedBit => rw [hkeep (by simp) (by simp) (by simp)]

end Sys2Proof.Machine
end

section
/-! SUPPORT. Each command as one equation per case of its checks (43_commands.md R181 to R187). -/

namespace Sys2Proof.Machine

variable {s t : State} {a : Attrs} {c : ResultCode} {m : List Host.Cell}

theorem exec_configure_of_ok (h : validateAttrs s.regs = .ok a) :
    exec .configure s = .next ((s.unconfigure.adopt a).complete .ok) := by
  simp [exec, execConfigure, h]

theorem exec_configure_of_error (h : validateAttrs s.regs = .error c) :
    exec .configure s = .next (s.unconfigure.raise c) := by
  simp [exec, execConfigure, h]

theorem setupCore_of_fits (h : a.frameWords.toNat ≤ s.params.maxFrameWords) : setupCore a s = .ok s.applySetup :=
  if_neg (Nat.not_lt.2 h)

theorem setupCore_of_tooLarge (h : s.params.maxFrameWords < a.frameWords.toNat) :
    setupCore a s = .error .bufferTooSmall :=
  if_pos h

theorem exec_setup_of_noSet (hset : s.attrs = none) :
    exec .setup s = .next (s.dropPacket.raise .invalidParameter) := by
  simp [exec, execSetup, hset]

theorem exec_setup_of_ok (hset : s.attrs = some a) (hsetup : setupCore a s.dropPacket = .ok t) :
    exec .setup s = .next (t.complete .ok) := by
  simp [exec, execSetup, hset, hsetup]

theorem exec_setup_of_error (hset : s.attrs = some a) (hsetup : setupCore a s.dropPacket = .error c) :
    exec .setup s = .next (s.dropPacket.raise c) := by
  simp [exec, execSetup, hset, hsetup]

theorem exec_decodeFirst_of_latched (hfatal : s.fatal = some c) : exec .decodeFirst s = .next (s.complete c) := by
  simp [exec, execDecodeFirst, hfatal]

theorem exec_decodeFirst_of_noSet (hfatal : s.fatal = none) (hset : s.attrs = none) :
    exec .decodeFirst s = .next (s.dropPacket.raise .unsupported) := by
  simp [exec, execDecodeFirst, hfatal, hset]

/-- Past its first three steps DECODE_FIRST is steps 5 to 11 on the latched packet (43_commands.md R185). -/
theorem exec_decodeFirst_of_set (hfatal : s.fatal = none) (hset : s.attrs = some a) :
    exec .decodeFirst s = .next (decodeChecked a s.dropPacket.latchPacket) := by
  simp [exec, execDecodeFirst, hfatal, hset]

theorem decodeChecked_of_refused (hlen : lengthRefusal s.params s.pkt.len.toNat = some c) :
    decodeChecked a s = s.complete c := by
  simp [decodeChecked, hlen]

theorem decodeChecked_of_setupError (hlen : lengthRefusal s.params s.pkt.len.toNat = none)
    (hsetup : setupIfNeeded a s = .error c) : decodeChecked a s = s.raise c := by
  simp [decodeChecked, hlen, hsetup]

theorem decodeChecked_of_setupOk (hlen : lengthRefusal s.params s.pkt.len.toNat = none)
    (hsetup : setupIfNeeded a s = .ok t) : decodeChecked a s = decodeLatched a t := by
  simp [decodeChecked, hlen, hsetup]

theorem decodeLatched_of_mode (hmode : s.pkt.throughput = false) : decodeLatched a s = s.raise .unsupported := by
  simp [decodeLatched, hmode]

theorem decodeLatched_of_fixupError (hmode : s.pkt.throughput = true)
    (hfixup : byteSwapFixup s.params a s.pkt s.payload = .error c) : decodeLatched a s = s.raise c := by
  simp [decodeLatched, hmode, hfixup]

theorem exec_decodeNext_of_latched (hfatal : s.fatal = some c) : exec .decodeNext s = .next (s.complete c) := by
  simp [exec, execDecodeNext, hfatal]

theorem exec_decodeNext_of_noSet (hfatal : s.fatal = none) (hset : s.attrs = none) :
    exec .decodeNext s = .next (s.raise .unsupported) := by
  simp [exec, execDecodeNext, hfatal, hset]

theorem exec_decodeNext_of_noPacket (hfatal : s.fatal = none) (hset : s.attrs = some a) (hready : s.pktReady = false) :
    exec .decodeNext s = .next (s.complete .illegalCommand) := by
  simp [exec, execDecodeNext, hfatal, hset, hready]

theorem exec_feedBit_of_latched (hfatal : s.fatal = some c) (b : Bool) :
    exec (.feedBit b) s = .next (s.complete c) := by
  simp [exec, execFeedBit, hfatal]

theorem exec_feedBit_of_needsSetup (hfatal : s.fatal = none) (hsetup : s.needsSetup = true) (b : Bool) :
    exec (.feedBit b) s = .next (s.complete .illegalCommand) := by
  simp [exec, execFeedBit, hfatal, hsetup]

theorem exec_feedBit_of_noSet (hfatal : s.fatal = none) (hsetup : s.needsSetup = false) (hset : s.attrs = none)
    (b : Bool) : exec (.feedBit b) s = .fault .noAttributeSet := by
  simp [exec, execFeedBit, hfatal, hsetup, hset]

end Sys2Proof.Machine
end

section
/-! PROOFS. CONFIGURE: the checks of 43_commands.md R182 decide `InRange`, and what a passing one latches. -/

namespace Sys2Proof.Machine

/-- A register without bits from `n` on is a number below 2^n. -/
theorem highField_eq_zero_iff (v : Word) {n k : Nat} (hwidth : n + k = 64) :
    v.extractLsb' n k = 0 ↔ v.toNat < 2 ^ n := by
  have hfield : v.toNat / 2 ^ n < 2 ^ k :=
    Nat.div_lt_of_lt_mul (by rw [← pow_add, hwidth]; exact v.isLt)
  rw [BitVec.toNat_eq, BitVec.extractLsb'_toNat, Nat.shiftRight_eq_div_pow, Nat.mod_eq_of_lt hfield]
  exact Nat.div_eq_zero_iff_lt (Nat.two_pow_pos n)

/-- The sign bit as a bound (43_commands.md R182: `MIN_SYNC` below 2^63). -/
theorem signBit_eq_false_iff (v : Word) : v.getLsbD 63 = false ↔ v.toNat < 2 ^ 63 := by
  have hsign : v.msb = v.getLsbD 63 := BitVec.msb_eq_getLsbD_last v
  rw [← hsign, BitVec.msb_eq_false_iff_two_mul_lt]
  omega

theorem parityModeOf_ne_none_iff (r : Word) : parityModeOf r ≠ none ↔ r.toNat % 4 ≠ 3 := by
  rw [parityModeOf_eq]
  split_ifs <;> simp <;> omega

/-- In range is that none of the checks before LSB_FIRST fails, in the model's own spelling of them
(43_commands.md R182). -/
theorem inRange_iff {r : AttrRegs} :
    r.InRange ↔
      ¬ (r.wordLen.toNat < 1 ∨ 64 < r.wordLen.toNat) ∧
      ¬ (r.frameWords.toNat < 2 ∨ 4294967295 < r.frameWords.toNat) ∧
      ¬ (r.syncLen.toNat < 1 ∨ 64 < r.syncLen.toNat) ∧
      r.syncMask &&& ~~~(ones r.syncLen.toNat) = 0 ∧ r.syncPattern &&& ~~~r.syncMask = 0 ∧
      r.minSync.getLsbD 63 = false ∧ parityReserved r.parity = 0 ∧ parityModeOf r.parity ≠ none ∧
      byteOrderReserved r.byteOrder = 0 := by
  rw [patternInMask_iff r.syncPattern r.syncMask, signBit_eq_false_iff, parityReserved, highField_eq_zero_iff _ rfl,
    parityModeOf_ne_none_iff, byteOrderReserved, highField_eq_zero_iff _ rfl]
  constructor
  · rintro ⟨hword, hframe, hsync, hmask, hpattern, hmin, ⟨hparity, hmode⟩, horder⟩
    exact ⟨by omega, by omega, by omega, (maskInLength_iff _ hsync.2).2 hmask, hpattern, hmin, hparity, hmode, horder⟩
  · rintro ⟨hword, hframe, hsync, hmask, hpattern, hmin, hparity, hmode, horder⟩
    exact ⟨by omega, by omega, by omega, (maskInLength_iff _ (by omega)).1 hmask, hpattern, hmin, ⟨hparity, hmode⟩,
      horder⟩

/-- `A.parity_mode` of a `PARITY` register whose mode is not the reserved 3 (10_state.md R29). -/
def latchedParityMode (v : Word) : ParityMode :=
  if v.toNat % 4 = 0 then .none else if v.toNat % 4 = 1 then .odd else .even

theorem parityModeOf_eq_latched {v : Word} (h : parityModeOf v ≠ none) :
    parityModeOf v = some (latchedParityMode v) := by
  have hmode := (parityModeOf_ne_none_iff v).1 h
  rw [parityModeOf_eq, latchedParityMode]
  split_ifs
  · rfl
  · rfl
  · rfl
  · omega

/-- The set `A` that a passing CONFIGURE latches, field by field (10_state.md R22 to R31). -/
def latchedSet (r : AttrRegs) : Attrs where
  wordLen := r.wordLen
  frameWords := r.frameWords
  frameBits :=
    if r.frameBits = 0 then BitVec.ofNat 64 (r.wordLen.toNat * (r.frameWords.toNat - 1) + r.syncLen.toNat)
    else r.frameBits
  syncPattern := r.syncPattern
  syncMask := r.syncMask
  syncLen := r.syncLen
  minSync := r.minSync
  parityMode := latchedParityMode r.parity
  parityPos := if r.parity.getLsbD 2 then .trailing else .leading
  byteSwap := r.byteOrder.getLsbD 0
  timePerBit := r.timePerBit

theorem frameBitsOf_eq_latched (r : AttrRegs) : frameBitsOf r = (latchedSet r).frameBits := ite_not ..

theorem validateAttrs_of_inRange {r : AttrRegs} (h : r.InRange) :
    validateAttrs r = if r.byteOrder.getLsbD 1 then .error .unsupported else .ok (latchedSet r) := by
  obtain ⟨hword, hframe, hsync, hmask, hpattern, hmin, hparity, hmode, horder⟩ := inRange_iff.1 h
  rw [validateAttrs, if_neg hword, if_neg hframe, if_neg hsync, if_neg (not_not.2 hmask), if_neg (not_not.2 hpattern),
    if_neg (Bool.eq_false_iff.1 hmin), if_neg (not_not.2 hparity), parityModeOf_eq_latched hmode,
    frameBitsOf_eq_latched]
  exact if_neg (not_not.2 horder)

/-- Out of range one of the checks fails; every one of them answers the same code. -/
theorem validateAttrs_of_not_inRange {r : AttrRegs} (h : ¬ r.InRange) :
    validateAttrs r = .error .invalidParameter := by
  rcases hmode : parityModeOf r.parity with _ | mode <;> simp only [validateAttrs, hmode]
  · split_ifs <;> rfl
  · split_ifs with hword hframe hsync hmask hpattern hmin hparity horder
    any_goals rfl
    all_goals exact absurd (inRange_iff.2 ⟨hword, hframe, hsync, not_not.1 hmask, not_not.1 hpattern,
      Bool.eq_false_iff.2 hmin, not_not.1 hparity, by simp [hmode], not_not.1 horder⟩) h

/-- Settles O7, by the two equations of the validation; the four status writes are `unconfigure`. -/
theorem configureValidatesAndLatches : Obligations.ConfigureValidatesAndLatches := by
  refine fun s => ⟨fun hrange hlsb => ?_, fun hrange => ?_, fun hrange hlsb => ?_⟩
  · have hok : validateAttrs s.regs = .ok (latchedSet s.regs) := by
      rw [validateAttrs_of_inRange hrange, hlsb]
      rfl
    exact exec_configure_of_ok hok
  · exact exec_configure_of_error (validateAttrs_of_not_inRange hrange)
  · have hunsupported : validateAttrs s.regs = .error .unsupported := by
      rw [validateAttrs_of_inRange hrange, hlsb]
      rfl
    exact exec_configure_of_error hunsupported

end Sys2Proof.Machine
end

section
/-! PROOFS. Every command completes in the states of the invariant (60_exceptions.md R228). -/

namespace Sys2Proof.Machine

variable {s : State}

theorem exec_configure_completes (s : State) : ∃ t, exec .configure s = .next t := by
  rcases h : validateAttrs s.regs with c | a
  · exact ⟨_, exec_configure_of_error h⟩
  · exact ⟨_, exec_configure_of_ok h⟩

theorem exec_setup_completes (s : State) : ∃ t, exec .setup s = .next t := by
  rcases hset : s.attrs with _ | a
  · exact ⟨_, exec_setup_of_noSet hset⟩
  · rcases hsetup : setupCore a s.dropPacket with c | t
    · exact ⟨_, exec_setup_of_error hset hsetup⟩
    · exact ⟨_, exec_setup_of_ok hset hsetup⟩

theorem exec_decodeFirst_completes (s : State) : ∃ t, exec .decodeFirst s = .next t := by
  rcases hfatal : s.fatal with _ | c
  · rcases hset : s.attrs with _ | a
    · exact ⟨_, exec_decodeFirst_of_noSet hfatal hset⟩
    · exact ⟨_, exec_decodeFirst_of_set hfatal hset⟩
  · exact ⟨_, exec_decodeFirst_of_latched hfatal⟩

theorem exec_decodeNext_completes (s : State) : ∃ t, exec .decodeNext s = .next t := by
  rcases hfatal : s.fatal with _ | c
  · rcases hset : s.attrs with _ | a
    · exact ⟨_, exec_decodeNext_of_noSet hfatal hset⟩
    · cases hready : s.pktReady
      · exact ⟨_, exec_decodeNext_of_noPacket hfatal hset hready⟩
      · exact ⟨_, exec_decodeNext_of_loaded hfatal hset hready⟩
  · exact ⟨_, exec_decodeNext_of_latched hfatal⟩

/-- The one command that can stop: the invariant gives STEP its set `A` once setup is done
(43_commands.md R187, log 3). -/
theorem State.Inv.exec_feedBit_completes (hinv : s.Inv) (b : Bool) : ∃ t, exec (.feedBit b) s = .next t := by
  rcases hfatal : s.fatal with _ | c
  · cases hsetup : s.needsSetup
    · obtain ⟨a, hset, -⟩ := hinv.decoder hsetup
      exact ⟨_, exec_feedBit_of_ready hfatal hsetup hset b⟩
    · exact ⟨_, exec_feedBit_of_needsSetup hfatal hsetup b⟩
  · exact ⟨_, exec_feedBit_of_latched hfatal b⟩

/-- Settles O48: only FEED_BIT needs the invariant. -/
theorem commandsNeverStopUnderTheInvariant : Obligations.CommandsNeverStopUnderTheInvariant := by
  intro i s hinv
  cases i with
  | nop => exact ⟨_, rfl⟩
  | configure => exact exec_configure_completes s
  | setup => exact exec_setup_completes s
  | decodeFirst => exact exec_decodeFirst_completes s
  | decodeNext => exact exec_decodeNext_completes s
  | feedBit b => exact hinv.exec_feedBit_completes b
  | swapBytes => exact ⟨_, exec_swapBytes s⟩
  | swapShorts => exact ⟨_, exec_swapShorts s⟩

end Sys2Proof.Machine
end

section
/-! PROOFS. The block's turn with a legal command, NOP and SETUP (43_commands.md R180, R181, R184). -/

namespace Sys2Proof.Machine

theorem performCommand_of_ok {c : Word} {i : Instr} {s : State} (h : decode c = .ok i) :
    performCommand c s = exec i s := by
  simp [performCommand, h]

/-- Settles O4: both shapes of the turn list are the block's turn, which performs the pending word. -/
theorem stepRunsTheDecodedCommand : Obligations.StepRunsTheDecodedCommand := by
  intro s c i hpending hdecode
  have hturn : ∀ t : State, t.pendingCmd = some c → blockTurn t = exec i t :=
    fun _ h => (blockTurn_of_pending h).trans (performCommand_of_ok hdecode)
  exact ⟨fun hnil => (step_of_turns_nil hnil).trans (hturn s hpending),
    fun rest hblock => (step_of_block_turn hblock).trans (hturn { s with turns := rest } hpending)⟩

/-- Settles O6: NOP is its completion alone. -/
theorem nopCompletesOk : Obligations.NopCompletesOk := fun _ => rfl

/-- Settles O9, by what SETUP_CORE answers for the frame (43_commands.md R183). -/
theorem setupResetsTheDecoder : Obligations.SetupResetsTheDecoder :=
  fun _ => ⟨fun _ hset hfits => exec_setup_of_ok hset (setupCore_of_fits hfits),
    fun _ hset hlarge => exec_setup_of_error hset (setupCore_of_tooLarge hlarge), exec_setup_of_noSet⟩

end Sys2Proof.Machine
end

section
/-! PROOFS. DECODE_FIRST, by how far its steps come (43_commands.md R185). -/

namespace Sys2Proof.Machine

variable {s : State} {a : Attrs} {m : List Host.Cell}

theorem lengthRefusal_of_short {p : Params} {len : Nat} (h : len < p.csdwBytes) :
    lengthRefusal p len = some .noMoreData :=
  if_pos h

theorem lengthRefusal_of_long {p : Params} {len : Nat} (hmin : p.csdwBytes ≤ len) (hlong : p.maxPayloadBytes < len) :
    lengthRefusal p len = some .bufferOverrun :=
  (if_neg (Nat.not_lt.2 hmin)).trans (if_pos hlong)

theorem setupIfNeeded_of_tooLarge (hneeds : s.needsSetup = true)
    (hlarge : s.params.maxFrameWords < a.frameWords.toNat) : setupIfNeeded a s = .error .bufferTooSmall :=
  (if_pos hneeds).trans (setupCore_of_tooLarge hlarge)

/-- Settles O10: steps 1 to 3 by their checks, steps 5 to 7 on the state with the packet registers latched. -/
theorem decodeFirstRefusesBeforeSetup : Obligations.DecodeFirstRefusesBeforeSetup := by
  refine fun s => ⟨fun c => exec_decodeFirst_of_latched, exec_decodeFirst_of_noSet, fun a hfatal hset hshort => ?_,
    fun a hfatal hset hmin hlong => ?_, fun a hfatal hset hmin hmax hneeds hlarge => ?_⟩
  all_goals rw [exec_decodeFirst_of_set hfatal hset]
  · rw [decodeChecked_of_refused (lengthRefusal_of_short hshort)]
    rfl
  · rw [decodeChecked_of_refused (lengthRefusal_of_long hmin hlong)]
    rfl
  · have hlen : lengthRefusal s.params s.packet.len.toNat = none := lengthRefusal_eq_none.2 ⟨hmin, hmax⟩
    rw [decodeChecked_of_setupError (s := s.dropPacket.latchPacket) hlen (setupIfNeeded_of_tooLarge hneeds hlarge)]
    rfl

/-- Past step 7 DECODE_FIRST is steps 8 to 11 on the accepted packet (43_commands.md R185). -/
theorem exec_decodeFirst_of_setupDone (hfatal : s.fatal = none) (hset : s.attrs = some a)
    (hmin : s.params.csdwBytes ≤ s.packet.len.toNat) (hmax : s.packet.len.toNat ≤ s.params.maxPayloadBytes)
    (hfit : s.needsSetup = true → a.frameWords.toNat ≤ s.params.maxFrameWords) :
    exec .decodeFirst s = .next (decodeLatched a (packetAccepted s)) := by
  rw [exec_decodeFirst_of_set hfatal hset,
    decodeChecked_of_setupOk (lengthRefusal_eq_none.2 ⟨hmin, hmax⟩) (setupIfNeeded_latched hfit)]

/-- The accepted packet's state as one record; with the latch clear, the setup has none to clear. -/
theorem packetAccepted_eq (hfatal : s.fatal = none) :
    packetAccepted s =
      { s with pktReady := false, pkt := s.packet, dec := firstDecoder s, needsSetup := false } := by
  obtain ⟨_, _, _, _, _, _, needsSetup, fatal, _, _, _, _, _, _, _⟩ := s
  obtain rfl : fatal = none := hfatal
  cases needsSetup <;> rfl

theorem byteSwapFixup_of_badLength {p : Params} {pkt : Packet} (hswap : a.byteSwap = true)
    (hlen : (pkt.len.toNat - p.csdwBytes) % 2 ≠ 0 ∨
      (pkt.align32 = true ∧ (pkt.len.toNat - p.csdwBytes) % 4 ≠ 0)) :
    byteSwapFixup p a pkt m = .error .invalidData := by
  by_cases hodd : (pkt.len.toNat - p.csdwBytes) % 2 ≠ 0
  · rw [byteSwapFixup, if_pos hswap, if_pos hodd]
  · rw [byteSwapFixup, if_pos hswap, if_neg hodd, if_pos (hlen.resolve_left hodd)]

/-- Settles O11: steps 8 and 9 refuse on the accepted packet. -/
theorem decodeFirstRefusesAfterSetup : Obligations.DecodeFirstRefusesAfterSetup := by
  intro s a hfatal hset hmin hmax hfit
  rw [exec_decodeFirst_of_setupDone hfatal hset hmin hmax hfit]
  have hthroughput : (packetAccepted s).pkt.throughput = s.packet.mode.getLsbD 0 :=
    congrArg Packet.throughput (packetAccepted_pkt s)
  refine ⟨fun hmode => ?_, fun hmode hswap hlen => ?_⟩
  · rw [decodeLatched_of_mode (hthroughput.trans hmode), packetAccepted_eq hfatal]
    rfl
  · have hfixup : byteSwapFixup (packetAccepted s).params a (packetAccepted s).pkt (packetAccepted s).payload =
        .error .invalidData := by
      rw [packetAccepted_params, packetAccepted_pkt]
      exact byteSwapFixup_of_badLength hswap hlen
    rw [decodeLatched_of_fixupError (hthroughput.trans hmode) hfixup, packetAccepted_eq hfatal]
    rfl

/-- Settles O12: RUN on the accepted packet with the fixup's payload and the cursor at 0. -/
theorem decodeFirstRunsTheNewPacket : Obligations.DecodeFirstRunsTheNewPacket := by
  intro s a m hfatal hset hmin hmax hfit hmode hfixup
  rw [exec_decodeFirst_of_accepted hfatal hset hmin hmax hfit hmode hfixup, packetAccepted_eq hfatal]
  rfl

end Sys2Proof.Machine
end

section
/-! PROOFS. DECODE_NEXT, and FEED_BIT's refusals (43_commands.md R186, R187). -/

namespace Sys2Proof.Machine

/-- Settles O14, by the equation of each outcome. -/
theorem decodeNextResumesThePacket : Obligations.DecodeNextResumesThePacket :=
  fun _ => ⟨fun _ => exec_decodeNext_of_latched, exec_decodeNext_of_noSet, fun _ => exec_decodeNext_of_noPacket,
    fun _ => exec_decodeNext_of_loaded⟩

/-- Settles O22, by the equation of each refusal. -/
theorem feedBitIsRefusedBeforeSetup : Obligations.FeedBitIsRefusedBeforeSetup :=
  fun _ b => ⟨fun _ hfatal => exec_feedBit_of_latched hfatal b,
    fun hfatal hsetup => exec_feedBit_of_needsSetup hfatal hsetup b,
    fun hfatal hsetup hset => exec_feedBit_of_noSet hfatal hsetup hset b⟩

end Sys2Proof.Machine
end

section
/-! SUPPORT. The codes each check can answer with (60_exceptions.md R221, R227). -/

namespace Sys2Proof.Machine

variable {s : State} {a : Attrs} {c : ResultCode}

/-- The fatal codes (60_exceptions.md R222). -/
theorem isFatal_iff : c.isFatal = true ↔ c = .unsupported ∨ c = .invalidParameter ∨ c = .bufferTooSmall := by
  cases c <;> decide

theorem validateAttrs_error {r : AttrRegs} (h : validateAttrs r = .error c) :
    c = .unsupported ∨ c = .invalidParameter := by
  by_cases hrange : r.InRange
  · rw [validateAttrs_of_inRange hrange] at h
    split_ifs at h
    cases h
    exact .inl rfl
  · cases (validateAttrs_of_not_inRange hrange).symm.trans h
    exact .inr rfl

theorem setupCore_error (h : setupCore a s = .error c) : c = .bufferTooSmall := by
  rcases setupCore_cases a s with ⟨-, e⟩ | ⟨-, e⟩ <;> cases e.symm.trans h
  rfl

theorem setupIfNeeded_error (h : setupIfNeeded a s = .error c) : c = .bufferTooSmall := by
  unfold setupIfNeeded at h
  split_ifs at h
  exact setupCore_error h

theorem lengthRefusal_some {p : Params} {len : Nat} (h : lengthRefusal p len = some c) :
    c = .noMoreData ∨ c = .bufferOverrun := by
  rcases lengthRefusal_cases p len with ⟨-, e⟩ | ⟨-, -, e⟩ | ⟨-, -, e⟩ <;> cases e.symm.trans h
  · exact .inl rfl
  · exact .inr rfl

theorem byteSwapFixup_error {p : Params} {pkt : Packet} {m : List Host.Cell} (h : byteSwapFixup p a pkt m = .error c) :
    c = .invalidData := by
  rcases byteSwapFixup_cases p a pkt m with ⟨-, e⟩ | ⟨-, -, e⟩ | ⟨-, -, -, e⟩ | ⟨-, -, -, e⟩ <;>
    cases e.symm.trans h
  rfl

theorem decodeLatched_of_fixupOk {m : List Host.Cell} (hmode : s.pkt.throughput = true)
    (hfixup : byteSwapFixup s.params a s.pkt s.payload = .ok m) :
    decodeLatched a s = runPacket a (s.withPayload m).startPacket := by
  simp [decodeLatched, hmode, hfixup]

end Sys2Proof.Machine
end

section
/-! SUPPORT. How a command completes and what becomes of the fatal latch (60_exceptions.md R221, R222): one of the given
codes, which sets the latch exactly if it is fatal. -/

namespace Sys2Proof.Machine

variable {s t : State} {a : Attrs} {c : ResultCode} {codes : List ResultCode}

/-- The state of a command that completed with one of `codes` where the latch was `latch` before. -/
structure State.CompletesWith (t : State) (codes : List ResultCode) (latch : Option ResultCode) : Prop where
  own : t.result ∈ codes
  latched : t.fatal = if t.result.isFatal then some t.result else latch

theorem completesWith_raise (hown : c ∈ codes) : (s.raise c).CompletesWith codes s.fatal :=
  ⟨hown, rfl⟩

theorem completesWith_complete (hown : c ∈ codes) (hfatal : c.isFatal = false) :
    (s.complete c).CompletesWith codes s.fatal :=
  ⟨hown, by simp [hfatal]⟩

theorem completesWith_runPacket (hframe : .frame ∈ codes) (hend : .noMoreData ∈ codes) :
    (runPacket a s).CompletesWith codes s.fatal := by
  unfold runPacket
  split_ifs
  · exact completesWith_complete hframe rfl
  · exact completesWith_complete hend rfl

theorem completesWith_feedStep (b : Bool) : (feedStep a b s).CompletesWith (ownCodes (.feedBit b)) s.fatal := by
  unfold feedStep
  split_ifs
  · exact completesWith_complete (by simp [ownCodes]) rfl
  · exact completesWith_complete (by simp [ownCodes]) rfl

/-- A refused length completes with its code and raises nothing (43_commands.md R190). -/
theorem completesWith_lengthRefusal {p : Params} {len : Nat} (h : lengthRefusal p len = some c)
    (hshort : .noMoreData ∈ codes) (hlong : .bufferOverrun ∈ codes) :
    (s.complete c).CompletesWith codes s.fatal := by
  rcases lengthRefusal_some h with rfl | rfl
  · exact completesWith_complete hshort rfl
  · exact completesWith_complete hlong rfl

/-- The two standalone swaps have one row of codes (43_commands.md R188, R189). -/
theorem completesWith_swapCommand {swap : Params → Nat → List Host.Cell → Except ResultCode (List Host.Cell)}
    (hswap : ∀ p len m c, swap p len m = .error c → c = .invalidData) :
    (swapCommand swap s).CompletesWith [.ok, .noMoreData, .invalidData, .bufferOverrun] s.fatal := by
  rcases swapCommand_cases swap s with ⟨c, hlen, e⟩ | ⟨-, ⟨c, hc, e⟩ | ⟨m, -, e⟩⟩ <;> rw [e]
  · exact completesWith_lengthRefusal hlen (by decide) (by decide)
  · obtain rfl := hswap _ _ _ _ hc
    exact completesWith_raise (by decide)
  · exact completesWith_complete (by decide) rfl

/-- Steps 8 to 11 of DECODE_FIRST (43_commands.md R185). -/
theorem completesWith_decodeLatched : (decodeLatched a s).CompletesWith (ownCodes .decodeFirst) s.fatal := by
  cases hmode : s.pkt.throughput with
  | false =>
    rw [decodeLatched_of_mode hmode]
    exact completesWith_raise (by decide)
  | true =>
    rcases hfixup : byteSwapFixup s.params a s.pkt s.payload with c | m
    · rw [decodeLatched_of_fixupError hmode hfixup, byteSwapFixup_error hfixup]
      exact completesWith_raise (by decide)
    · rw [decodeLatched_of_fixupOk hmode hfixup]
      exact completesWith_runPacket (by decide) (by decide)

/-- Steps 5 to 11 of DECODE_FIRST (43_commands.md R185). With the latch clear, the setup of step 7 has none to
clear. -/
theorem completesWith_decodeChecked (hclear : s.fatal = none) :
    (decodeChecked a s).CompletesWith (ownCodes .decodeFirst) s.fatal := by
  rcases hlen : lengthRefusal s.params s.pkt.len.toNat with _ | c
  · rcases hsetup : setupIfNeeded a s with c | u
    · rw [decodeChecked_of_setupError hlen hsetup, setupIfNeeded_error hsetup]
      exact completesWith_raise (by decide)
    · have hlatch : u.fatal = s.fatal := by
        rcases setupIfNeeded_ok hsetup with ⟨-, rfl⟩ | ⟨-, rfl⟩
        · rfl
        · exact hclear.symm
      rw [decodeChecked_of_setupOk hlen hsetup, ← hlatch]
      exact completesWith_decodeLatched
  · rw [decodeChecked_of_refused hlen]
    exact completesWith_lengthRefusal hlen (by decide) (by decide)

theorem exec_configure_completesWith (h : exec .configure s = .next t) :
    t.CompletesWith (ownCodes .configure) s.fatal := by
  rcases hvalid : validateAttrs s.regs with c | a
  · cases (exec_configure_of_error hvalid).symm.trans h
    exact completesWith_raise (by rcases validateAttrs_error hvalid with rfl | rfl <;> decide)
  · cases (exec_configure_of_ok hvalid).symm.trans h
    exact completesWith_complete (by decide) rfl

/-- SETUP resets the decoder state and the latch, or raises its refusal (43_commands.md R184). -/
theorem exec_setup_completesWith (h : exec .setup s = .next t) :
    t = s.dropPacket.applySetup.complete .ok ∨ t.CompletesWith (ownCodes .setup) s.fatal := by
  rcases hset : s.attrs with _ | a
  · cases (exec_setup_of_noSet hset).symm.trans h
    exact .inr (completesWith_raise (by decide))
  · rcases setupCore_cases a s.dropPacket with ⟨-, e⟩ | ⟨-, e⟩
    · cases (exec_setup_of_error hset e).symm.trans h
      exact .inr (completesWith_raise (by decide))
    · cases (exec_setup_of_ok hset e).symm.trans h
      exact .inl rfl

theorem exec_decodeFirst_completesWith (hclear : s.fatal = none) (h : exec .decodeFirst s = .next t) :
    t.CompletesWith (ownCodes .decodeFirst) s.fatal := by
  rcases hset : s.attrs with _ | a
  · cases (exec_decodeFirst_of_noSet hclear hset).symm.trans h
    exact completesWith_raise (by decide)
  · cases (exec_decodeFirst_of_set hclear hset).symm.trans h
    exact completesWith_decodeChecked hclear

theorem exec_decodeNext_completesWith (hclear : s.fatal = none) (h : exec .decodeNext s = .next t) :
    t.CompletesWith (ownCodes .decodeNext) s.fatal := by
  rcases hset : s.attrs with _ | a
  · cases (exec_decodeNext_of_noSet hclear hset).symm.trans h
    exact completesWith_raise (by decide)
  · cases hready : s.pktReady with
    | false =>
      cases (exec_decodeNext_of_noPacket hclear hset hready).symm.trans h
      exact completesWith_complete (by decide) rfl
    | true =>
      cases (exec_decodeNext_of_loaded hclear hset hready).symm.trans h
      exact completesWith_runPacket (by decide) (by decide)

theorem exec_feedBit_completesWith {b : Bool} (hclear : s.fatal = none) (h : exec (.feedBit b) s = .next t) :
    t.CompletesWith (ownCodes (.feedBit b)) s.fatal := by
  cases hneeds : s.needsSetup with
  | true =>
    cases (exec_feedBit_of_needsSetup hclear hneeds b).symm.trans h
    exact completesWith_complete (by simp [ownCodes]) rfl
  | false =>
    rcases hset : s.attrs with _ | a
    · cases (exec_feedBit_of_noSet hclear hneeds hset b).symm.trans h
    · cases (exec_feedBit_of_ready hclear hneeds hset b).symm.trans h
      exact completesWith_feedStep b

end Sys2Proof.Machine
end

section
/-! PROOFS. Result codes and the fatal latch over every command (60_exceptions.md R221 to R224). -/

namespace Sys2Proof.Machine

variable {s t : State} {i : Instr} {c : ResultCode}

theorem exec_of_latched (hblock : blockedByLatch i = true) (hfatal : s.fatal = some c) :
    exec i s = .next (s.complete c) := by
  cases i with
  | decodeFirst => exact exec_decodeFirst_of_latched hfatal
  | decodeNext => exact exec_decodeNext_of_latched hfatal
  | feedBit b => exact exec_feedBit_of_latched hfatal b
  | nop | configure | setup | swapBytes | swapShorts => exact absurd hblock (by decide)

/-- A command that the latch does not block is a passing SETUP, or completes with one of its own codes. -/
theorem exec_completesWith (hfree : s.fatal = none ∨ blockedByLatch i = false) (h : exec i s = .next t) :
    (i = .setup ∧ t = s.dropPacket.applySetup.complete .ok) ∨ t.CompletesWith (ownCodes i) s.fatal := by
  have hclear : blockedByLatch i = true → s.fatal = none := fun hblock => hfree.resolve_right (by simp [hblock])
  cases i with
  | nop => cases h; exact .inr (completesWith_complete (by decide) rfl)
  | configure => exact .inr (exec_configure_completesWith h)
  | setup => exact (exec_setup_completesWith h).imp_left fun ht => ⟨rfl, ht⟩
  | decodeFirst => exact .inr (exec_decodeFirst_completesWith (hclear rfl) h)
  | decodeNext => exact .inr (exec_decodeNext_completesWith (hclear rfl) h)
  | feedBit b => exact .inr (exec_feedBit_completesWith (hclear rfl) h)
  | swapBytes => cases h; exact .inr (completesWith_swapCommand fun _ _ _ _ => swap16_error)
  | swapShorts => cases h; exact .inr (completesWith_swapCommand fun _ _ _ _ => swap32_error)

/-- All a command can do to the latch: blocked by it, it completes with its code; a passing SETUP clears it; any other
completion follows from the command's own code. -/
theorem exec_latch_cases (h : exec i s = .next t) :
    (∃ c, s.fatal = some c ∧ t = s.complete c) ∨ (i = .setup ∧ t = s.dropPacket.applySetup.complete .ok) ∨
    ((s.fatal = none ∨ blockedByLatch i = false) ∧ t.CompletesWith (ownCodes i) s.fatal) := by
  cases hblock : blockedByLatch i with
  | false => exact .inr ((exec_completesWith (.inr hblock) h).imp_right fun ht => ⟨.inr rfl, ht⟩)
  | true =>
    rcases hfatal : s.fatal with _ | c
    · exact .inr ((exec_completesWith (.inl hfatal) h).imp_right fun ht => ⟨.inl rfl, hfatal ▸ ht⟩)
    · cases (exec_of_latched hblock hfatal).symm.trans h
      exact .inl ⟨c, rfl, rfl⟩

/-- Of the commands that run while the latch is set, only CONFIGURE and SETUP have fatal codes (R221, R223). -/
theorem eq_configure_or_setup_of_fatal (hfree : blockedByLatch i = false) (hown : c ∈ ownCodes i)
    (hfatal : c.isFatal = true) : i = .configure ∨ i = .setup := by
  cases i with
  | configure => exact .inl rfl
  | setup => exact .inr rfl
  | decodeFirst | decodeNext | feedBit => exact absurd hfree (by simp [blockedByLatch])
  | nop | swapBytes | swapShorts => rcases isFatal_iff.1 hfatal with rfl | rfl | rfl <;> exact absurd hown (by decide)

/-- Settles O43, by the first check of each of the three commands. -/
theorem latchBlocksDecoding : Obligations.LatchBlocksDecoding :=
  fun _ _ _ => exec_of_latched

/-- Settles O40: a passing SETUP's `OK` is a code of its row. -/
theorem commandsCompleteWithTheirOwnCodes : Obligations.CommandsCompleteWithTheirOwnCodes := by
  refine fun i s t h => ⟨fun hfree => ?_, fun c hfatal hblock => ?_⟩
  · rcases exec_completesWith hfree h with ⟨rfl, rfl⟩ | ht
    · simp [ownCodes]
    · exact ht.own
  · cases (exec_of_latched hblock hfatal).symm.trans h
    rfl

/-- Settles O41: a blocked command leaves the latch at the code it completes with, a passing SETUP clears it, and
otherwise the completion's own code decides. -/
theorem fatalResultsSetTheLatch : Obligations.FatalResultsSetTheLatch := by
  intro i s t h
  rcases exec_latch_cases h with ⟨c, hfatal, rfl⟩ | ⟨rfl, rfl⟩ | ⟨hfree, ht⟩
  · exact ⟨fun _ => hfatal, fun _ => .inl rfl, fun _ hne => absurd rfl hne, fun _ => isFatal_iff⟩
  · exact ⟨fun hok => absurd hok Bool.false_ne_true, fun _ => .inr rfl, fun _ _ => .inr rfl, fun _ => isFatal_iff⟩
  · refine ⟨fun hfatal => ?_, fun hfatal => .inl ?_, fun hset hne => ?_, fun _ => isFatal_iff⟩
    · simp [ht.latched, hfatal]
    · simp [ht.latched, hfatal]
    · have hfatal : t.result.isFatal = true := by
        by_contra hnot
        exact hne (ht.latched.trans (if_neg hnot))
      exact eq_configure_or_setup_of_fatal (hfree.resolve_left hset) ht.own hfatal

/-- Settles O42: every other completion leaves a set latch set. -/
theorem onlySetupClearsTheLatch : Obligations.OnlySetupClearsTheLatch := by
  intro i s t h hset hclear
  rcases exec_latch_cases h with ⟨c, -, rfl⟩ | ⟨rfl, rfl⟩ | ⟨-, ht⟩
  · exact absurd hclear hset
  · exact ⟨rfl, rfl, rfl, rfl⟩
  · have hlatch := ht.latched.symm.trans hclear
    split_ifs at hlatch
    exact absurd hlatch hset

end Sys2Proof.Machine
end

section
/-! PROOFS. Host accesses while the block is busy (20_memory.md R68, 70_reset_and_hazards.md R253). -/

namespace Sys2Proof.Machine

variable {s : State} {off size : Nat}

/-- `ones(n)` as a number below its width (00_scope.md R8). -/
theorem ones_toNat_lt {n : Nat} (hn : n ≤ 64) : (ones n).toNat < 2 ^ n := by
  rw [ones, BitVec.toNat_ushiftRight, Nat.shiftRight_eq_div_pow]
  refine Nat.div_lt_of_lt_mul ?_
  rw [← pow_add, Nat.sub_add_cancel hn]
  exact BitVec.isLt _

theorem hostAccess_write_busy (v : Word) (hbusy : s.busy = true) (hin : off < windowBytes)
    (hok : accessOk s.params off size = true) :
    hostAccess (.write off size v) s = .refused .hostWriteWhileBusy := by
  simp [hostAccess, Nat.not_le.2 hin, hok, hbusy]

/-- `STATUS` is the one location whose read does not depend on BUSY (70_reset_and_hazards.md R253). -/
theorem hostAccess_read_status (s : State) :
    hostAccess (.read 0x008 8) s = .next { s with hostData := s.statusWord } := by
  have hok : accessOk s.params 0x008 8 = true := accessOk_of_aligned_word (by decide) (by decide)
  have hin : ¬ windowBytes ≤ 0x008 := by decide
  have hregion : regionAt s.params 0x008 = .register .status := regionAt_offset s.params .status
  simp [hostAccess, hin, hok, hregion, windowRead, readReg, hostReceive]

theorem hostAccess_read_busy (hbusy : s.busy = true) (hin : off < windowBytes)
    (hok : accessOk s.params off size = true) (hother : regionAt s.params off ≠ .register .status) :
    hostAccess (.read off size) s = .next (busyReceive s size) := by
  simp [hostAccess, Nat.not_le.2 hin, hok, hbusy, hother]

/-- The free value is cut to the access's width, which is at most 64 bits (log 6). -/
theorem busyReceive_hostData_lt (s : State) (hok : accessOk s.params off size = true) :
    (busyReceive s size).hostData.toNat < 2 ^ (8 * size) := by
  obtain ⟨hwidth, -⟩ := accessOk_iff.1 hok
  rw [busyReceive_hostData, BitVec.toNat_and]
  exact Nat.and_lt_two_pow _ (ones_toNat_lt (by omega))

/-- Settles O53. -/
theorem accessesWhileBusy : Obligations.AccessesWhileBusy := by
  refine fun s hbusy => ⟨fun off size v hin hok => hostAccess_write_busy v hbusy hin hok, hostAccess_read_status s,
    fun off size hin hok hother => ?_⟩
  exact ⟨_, hostAccess_read_busy hbusy hin hok hother, busyReceive_hostData_lt s hok⟩

end Sys2Proof.Machine
end

section
/-! SUPPORT. The relation of `MF_BIT_COUNT` to the words collected as a fact about the decoder state, that every bit
step keeps it, and that it excludes the release of a frame that is too short (70_reset_and_hazards.md R261). -/

namespace Sys2Proof.Machine

/-- What `State.FrameCounted` asks of the decoder state under the set `a` (`State.frameCounted_iff`). -/
structure Decoder.FrameCounted (a : Attrs) (d : Decoder) : Prop where
  collecting : d.saveMode = .collecting →
    d.mfBitCount.toNat = (d.mfWordCount.toNat - 1) * a.wordLen.toNat + d.dwBitCount.toNat
  full : d.saveMode = .full → (a.frameWords.toNat - 1) * a.wordLen.toNat ≤ d.mfBitCount.toNat

/-- A frame length that does not reach past the data words (70_reset_and_hazards.md R261 (c)). -/
def Attrs.TooShort (a : Attrs) : Prop := a.frameBits.toNat ≤ (a.frameWords.toNat - 1) * a.wordLen.toNat

variable {p : Params} {a : Attrs} {base : Word} {b : Bool} {d : Decoder}

theorem State.frameCounted_iff {s : State} :
    s.FrameCounted ↔ ∀ a, s.needsSetup = false → s.attrs = some a → s.dec.FrameCounted a :=
  forall₃_congr fun _ _ _ => ⟨fun ⟨hcollecting, hfull⟩ => ⟨hcollecting, hfull⟩, fun h => ⟨h.collecting, h.full⟩⟩

/-- A counter below some other value has room for one more. -/
theorem toNat_succ_of_lt {v bound : Word} (h : v.toNat < bound.toNat) : (v + 1).toNat = v.toNat + 1 :=
  BitVec.toNat_add_of_lt (Nat.lt_of_le_of_lt h bound.isLt)

/-- The bits of any number of words up to a frame's leave `MF_BIT_COUNT` far from its saturation. -/
theorem Attrs.Valid.words_bits_lt (ha : a.Valid) {words : Nat} (hwords : words ≤ a.frameWords.toNat) :
    words * a.wordLen.toNat < 2 ^ 63 :=
  calc words * a.wordLen.toNat
      _ ≤ (2 ^ 32 - 1) * 64 := Nat.mul_le_mul (hwords.trans ha.frameWords.2) ha.wordLen.2
      _ < 2 ^ 63 := by decide

/-- While IDLE nothing is asked; in particular of the setup values (10_state.md R52). -/
theorem setupValue_frameCounted (a : Attrs) : Decoder.setupValue.FrameCounted a :=
  ⟨fun hmode => SaveMode.noConfusion hmode, fun hmode => SaveMode.noConfusion hmode⟩

/-- A sync fire starts the count anew with the first word (40_bit_sync.md R110). -/
theorem syncReset_frameCounted (a : Attrs) (d : Decoder) : (syncReset d).FrameCounted a :=
  ⟨fun _ => by simp, fun hmode => SaveMode.noConfusion hmode⟩

/-- Outside COLLECTING the bit is counted and nothing else (40_bit_sync.md R103, R111). -/
theorem Decoder.FrameCounted.loadBit (h : d.FrameCounted a) (hmode : d.saveMode ≠ .collecting) (b : Bool) :
    (loadBit b d).FrameCounted a where
  collecting := fun hcollecting => absurd hcollecting hmode
  full := fun hfull => by
    have hbound := h.full hfull
    have hlt := d.mfBitCount.isLt
    rw [loadBit_mfBitCount, satInc_toNat_eq_min]
    omega

/-- While COLLECTING a bit is counted in both counters, and neither overflows (40_bit_sync.md R103,
41_word_extractor.md R140). -/
theorem Decoder.FrameCounted.counts_next (ha : a.Valid) (hr : d.Running p a) (h : d.FrameCounted a)
    (hmode : d.saveMode = .collecting) :
    (satInc d.mfBitCount).toNat = (d.mfWordCount.toNat - 1) * a.wordLen.toNat + (d.dwBitCount + 1).toNat := by
  have hpartial := hr.consistent.partialWord
  have hlen := ha.wordLen.2
  have hwords := ha.words_bits_lt (words := d.mfWordCount.toNat - 1) (by have := hr.consistent.words; omega)
  have hcount := h.collecting hmode
  rw [satInc_toNat_eq_min, toNat_succ_of_lt hpartial]
  omega

/-- A bit that completes no word (41_word_extractor.md R140). -/
theorem Decoder.FrameCounted.collectBit (ha : a.Valid) (hr : d.Running p a) (h : d.FrameCounted a)
    (hmode : d.saveMode = .collecting) :
    ({ Machine.loadBit b d with dwBitCount := d.dwBitCount + 1 } : Decoder).FrameCounted a where
  collecting := fun _ => counts_next (d := d) ha hr h hmode
  full := fun hfull => by cases hmode.symm.trans hfull

/-- A completed word moves its bits from `DW_BIT_COUNT` to the words counted, and the last data word makes the frame
FULL (41_word_extractor.md R142, R143). -/
theorem Decoder.FrameCounted.writeWord (ha : a.Valid) (hr : d.Running p a) (h : d.FrameCounted a)
    (hmode : d.saveMode = .collecting) (hword : d.dwBitCount + 1 = a.wordLen) :
    (fullTest a (wordWrite a { Machine.loadBit b d with dwBitCount := d.dwBitCount + 1 })).FrameCounted a := by
  obtain ⟨hpos, hlt⟩ := hr.consistent.collecting hmode
  have hcount : (satInc d.mfBitCount).toNat = ((d.mfWordCount + 1).toNat - 1) * a.wordLen.toNat :=
    calc (satInc d.mfBitCount).toNat
        _ = (d.mfWordCount.toNat - 1) * a.wordLen.toNat + a.wordLen.toNat :=
          hword ▸ h.counts_next ha hr hmode
        _ = (d.mfWordCount.toNat - 1 + 1) * a.wordLen.toNat := (Nat.succ_mul _ _).symm
        _ = ((d.mfWordCount + 1).toNat - 1) * a.wordLen.toNat := by
          rw [toNat_succ_of_lt hlt, Nat.sub_add_cancel hpos, Nat.add_sub_cancel]
  refine ⟨fun _ => hcount, fun hfull => ?_⟩
  have hlast : d.mfWordCount + 1 = a.frameWords := by
    by_contra hne
    cases hmode.symm.trans ((if_neg hne).symm.trans hfull)
  exact hlast ▸ hcount.ge

/-- Every bit step keeps the relation (40_bit_sync.md R101): the three sync fires start the count anew, a collected bit
or word keeps it exact, and a bit outside a frame only adds to it. -/
theorem Decoder.FrameCounted.stepBit (ha : a.Valid) (hr : d.Running p a) (h : d.FrameCounted a) (base : Word)
    (b : Bool) : (stepBit a base b d).1.FrameCounted a := by
  rcases stepBit_cases a base b d with ⟨-, -, -, e⟩ | ⟨-, -, -, e⟩ | ⟨-, -, e⟩ | ⟨-, hmode, -, e⟩ |
    ⟨-, hmode, hword, e⟩ | ⟨-, hmode, e⟩ <;> rw [e]
  · exact syncReset_frameCounted a _
  · exact syncReset_frameCounted a _
  · exact syncReset_frameCounted a _
  · exact h.collectBit ha hr hmode
  · exact h.writeWord ha hr hmode hword
  · exact h.loadBit hmode b

/-- A FULL frame has counted its data words already, so the next bit's count is past a length that is too short. -/
theorem Decoder.FrameCounted.stepBit_releases_nothing (ha : a.Valid) (hshort : a.TooShort) (h : d.FrameCounted a)
    (base : Word) (b : Bool) : (Machine.stepBit a base b d).2 = false := by
  refine Bool.eq_false_iff.2 fun hreleased => ?_
  obtain ⟨hfull, -, hoffset, -⟩ := stepBit_released_iff.1 hreleased
  have hcounted := h.full hfull
  have hbits := ha.words_bits_lt (words := a.frameWords.toNat - 1) (Nat.sub_le _ _)
  have hnext : (satInc d.mfBitCount).toNat ≤ (a.frameWords.toNat - 1) * a.wordLen.toNat := hoffset ▸ hshort
  rw [satInc_toNat_eq_min] at hnext
  omega

/-- The decoder state that runs under `a` with its bits counted: what every bit step keeps. -/
structure Decoder.RunsCounted (p : Params) (a : Attrs) (d : Decoder) : Prop where
  running : d.Running p a
  counted : d.FrameCounted a

theorem Decoder.RunsCounted.stepBit (ha : a.Valid) (h : d.RunsCounted p a) (base : Word) (b : Bool) :
    (stepBit a base b d).1.RunsCounted p a :=
  ⟨h.running.stepBit ha base b, h.counted.stepBit ha h.running base b⟩

end Sys2Proof.Machine
end

section
/-! PROOFS. Streams and packets under a frame length that is too short (70_reset_and_hazards.md R261 (c)). -/

namespace Sys2Proof.Machine

variable {p : Params} {a : Attrs} {d : Decoder}

/-- No stream releases a frame, by induction on its bits. -/
theorem Decoder.RunsCounted.anyRelease_eq_false (ha : a.Valid) (hshort : a.TooShort) (h : d.RunsCounted p a)
    (base : Word) (bs : List Bool) : anyRelease a base bs d = false := by
  induction bs generalizing d with
  | nil => rfl
  | cons b bs ih => simp [anyRelease, h.counted.stepBit_releases_nothing ha hshort, ih (h.stepBit ha base b)]

/-- No RUN releases a frame, by induction on the turns of its loop (40_bit_sync.md R112). -/
theorem Decoder.RunsCounted.run_releases_nothing (ha : a.Valid) (hshort : a.TooShort) (h : d.RunsCounted p a)
    (pkt : Packet) (m : List Host.Cell) : (run p a pkt m d).2 = false := by
  unfold run
  induction dataBits p pkt - d.bitPosition.toNat generalizing d with
  | zero => rfl
  | succ turns ih =>
    by_cases hleft : d.bitPosition.toNat < dataBits p pkt
    · rw [runLoop_succ _ _ _ hleft, if_neg (by simp [h.counted.stepBit_releases_nothing ha hshort])]
      exact ih (h.stepBit ha pkt.baseTime _)
    · rw [runLoop, if_neg hleft]

/-- The setup values run counted wherever the output RAM holds the frame (10_state.md R52). -/
theorem setupValue_runsCounted (ha : a.Valid) (hfit : a.frameWords.toNat ≤ p.maxFrameWords) :
    Decoder.setupValue.RunsCounted p a where
  running :=
    { consistent := setupValue_consistent ha hfit
      syncCount := setupValue_bounds.1
      bitsLoaded := setupValue_bounds.2
      frameValid := fun hv => Bool.noConfusion hv
      outWord := OutRam.wf_nil _ _
      outErr := OutRam.wf_nil _ _ }
  counted := setupValue_frameCounted a

/-- Settles O32. A bit step reads no parameter, so a capacity of just the frame will do. -/
theorem tooShortFramesAreNeverReleased : Obligations.TooShortFramesAreNeverReleased :=
  fun a base bs ha hshort =>
    (setupValue_runsCounted (p := { Params.standard with maxFrameWords := a.frameWords.toNat }) ha
      le_rfl).anyRelease_eq_false ha hshort base bs

end Sys2Proof.Machine
end

section
/-! SUPPORT. How every command completes in the states of the two invariants: the frame count kept, and no `FRAME` under
a frame length that is too short (70_reset_and_hazards.md R261, 43_commands.md R181 to R189). -/

namespace Sys2Proof.Machine

variable {s t : State} {a : Attrs} {active : Option Attrs} {c : ResultCode}

/-- The state of a command that completed from the active set `active`: its frame count holds, and its result is not
`FRAME` when the set's frame length is too short. -/
structure State.CompletesCounted (t : State) (active : Option Attrs) : Prop where
  counted : t.FrameCounted
  noFrame : ∀ a, active = some a → a.TooShort → t.result ≠ .frame

/-- The completions that release nothing. -/
theorem completesCounted_of_ne_frame (hcounted : t.FrameCounted) (hresult : t.result ≠ .frame) :
    t.CompletesCounted active :=
  ⟨hcounted, fun _ _ _ => hresult⟩

/-- Until setup is done no count is related to a frame. -/
theorem frameCounted_of_needsSetup (h : s.needsSetup = true) : s.FrameCounted :=
  fun _ hdone _ => Bool.noConfusion (h.symm.trans hdone)

theorem applySetup_frameCounted (s : State) : s.applySetup.FrameCounted :=
  State.frameCounted_iff.2 fun a _ _ => setupValue_frameCounted a

theorem State.Inv.runsCounted (h : s.Inv) (hcounted : s.FrameCounted) (hdone : s.needsSetup = false)
    (hset : s.attrs = some a) : s.dec.RunsCounted s.params a :=
  ⟨h.running hdone hset, State.frameCounted_iff.1 hcounted a hdone hset⟩

/-- A decoder state that runs counted under the one active set. -/
theorem frameCounted_of_runsCounted (hset : s.attrs = some a) (h : s.dec.RunsCounted s.params a) : s.FrameCounted :=
  State.frameCounted_iff.2 fun a' _ hset' => by
    obtain rfl : a = a' := Option.some.inj (hset.symm.trans hset')
    exact h.counted

theorem runPacket_completesCounted (h : s.Inv) (hcounted : s.FrameCounted) (hdone : s.needsSetup = false)
    (hset : s.attrs = some a) : (runPacket a s).CompletesCounted (some a) := by
  have ha := h.attrs a hset
  have hstart := h.runsCounted hcounted hdone hset
  refine ⟨frameCounted_of_runsCounted hset ?_, fun a' heq hshort => ?_⟩
  · exact run_induct (P := (·.RunsCounted s.params a)) (fun b _ hd => hd.stepBit ha s.pkt.baseTime b) s.params
      s.payload hstart
  · cases heq
    simp [runPacket, hstart.run_releases_nothing ha hshort]

theorem feedStep_completesCounted (h : s.Inv) (hcounted : s.FrameCounted) (hdone : s.needsSetup = false)
    (hset : s.attrs = some a) (b : Bool) : (feedStep a b s).CompletesCounted (some a) := by
  have ha := h.attrs a hset
  have hstart := h.runsCounted hcounted hdone hset
  refine ⟨frameCounted_of_runsCounted hset (hstart.stepBit ha s.pkt.baseTime b), fun a' heq hshort => ?_⟩
  cases heq
  simp [feedStep, hstart.counted.stepBit_releases_nothing ha hshort]

/-- Steps 8 to 11 of DECODE_FIRST (43_commands.md R185). -/
theorem decodeLatched_completesCounted (h : s.Inv) (hcounted : s.FrameCounted) (hdone : s.needsSetup = false)
    (hset : s.attrs = some a) (hlen : lengthRefusal s.params s.pkt.len.toNat = none) :
    (decodeLatched a s).CompletesCounted (some a) := by
  cases hmode : s.pkt.throughput with
  | false =>
    rw [decodeLatched_of_mode hmode]
    exact completesCounted_of_ne_frame hcounted (by simp)
  | true =>
    rcases hfixup : byteSwapFixup s.params a s.pkt s.payload with c | m
    · rw [decodeLatched_of_fixupError hmode hfixup, byteSwapFixup_error hfixup]
      exact completesCounted_of_ne_frame hcounted (by simp)
    · obtain ⟨hmin, hmax⟩ := lengthRefusal_eq_none.1 hlen
      have hloaded := h.withPayload (byteSwapFixup_keeps hmax hmin hfixup)
      rw [decodeLatched_of_fixupOk hmode hfixup]
      exact runPacket_completesCounted (hloaded.startPacket hdone hlen) hcounted hdone hset

/-- Steps 5 to 11 of DECODE_FIRST (43_commands.md R185). -/
theorem decodeChecked_completesCounted (h : s.Inv) (hcounted : s.FrameCounted) (hset : s.attrs = some a) :
    (decodeChecked a s).CompletesCounted (some a) := by
  rcases hlen : lengthRefusal s.params s.pkt.len.toNat with _ | c
  · rcases hsetup : setupIfNeeded a s with c | u
    · rw [decodeChecked_of_setupError hlen hsetup, setupIfNeeded_error hsetup]
      exact completesCounted_of_ne_frame hcounted (by simp)
    · rw [decodeChecked_of_setupOk hlen hsetup]
      rcases setupIfNeeded_ok hsetup with ⟨hdone, rfl⟩ | ⟨hfit, rfl⟩
      · exact decodeLatched_completesCounted h hcounted hdone hset hlen
      · exact decodeLatched_completesCounted (h.applySetup hset hfit) (applySetup_frameCounted s) rfl hset hlen
  · rw [decodeChecked_of_refused hlen]
    exact completesCounted_of_ne_frame hcounted (by rcases lengthRefusal_some hlen with rfl | rfl <;> simp)

/-- A command that the latch blocks completes with its code, a fatal one (60_exceptions.md R222, R223). -/
theorem State.Inv.latched_completesCounted (h : s.Inv) (hcounted : s.FrameCounted) (hfatal : s.fatal = some c) :
    (s.complete c).CompletesCounted active := by
  refine completesCounted_of_ne_frame hcounted fun hframe => ?_
  have hcode := h.fatal c hfatal
  rw [show c = .frame from hframe] at hcode
  cases hcode

theorem exec_decodeFirst_completesCounted (hinv : s.Inv) (hcounted : s.FrameCounted)
    (h : exec .decodeFirst s = .next t) : t.CompletesCounted s.attrs := by
  rcases hfatal : s.fatal with _ | c
  · rcases hset : s.attrs with _ | a
    · cases (exec_decodeFirst_of_noSet hfatal hset).symm.trans h
      exact completesCounted_of_ne_frame hcounted (by simp)
    · cases (exec_decodeFirst_of_set hfatal hset).symm.trans h
      exact decodeChecked_completesCounted (hinv.dropPacket.latchPacket rfl) hcounted hset
  · cases (exec_decodeFirst_of_latched hfatal).symm.trans h
    exact hinv.latched_completesCounted hcounted hfatal

theorem exec_decodeNext_completesCounted (hinv : s.Inv) (hcounted : s.FrameCounted)
    (h : exec .decodeNext s = .next t) : t.CompletesCounted s.attrs := by
  rcases hfatal : s.fatal with _ | c
  · rcases hset : s.attrs with _ | a
    · cases (exec_decodeNext_of_noSet hfatal hset).symm.trans h
      exact completesCounted_of_ne_frame hcounted (by simp)
    · cases hready : s.pktReady with
      | false =>
        cases (exec_decodeNext_of_noPacket hfatal hset hready).symm.trans h
        exact completesCounted_of_ne_frame hcounted (by simp)
      | true =>
        cases (exec_decodeNext_of_loaded hfatal hset hready).symm.trans h
        exact runPacket_completesCounted hinv hcounted (hinv.packet hready).1 hset
  · cases (exec_decodeNext_of_latched hfatal).symm.trans h
    exact hinv.latched_completesCounted hcounted hfatal

theorem exec_feedBit_completesCounted {b : Bool} (hinv : s.Inv) (hcounted : s.FrameCounted)
    (h : exec (.feedBit b) s = .next t) : t.CompletesCounted s.attrs := by
  rcases hfatal : s.fatal with _ | c
  · cases hneeds : s.needsSetup with
    | true =>
      cases (exec_feedBit_of_needsSetup hfatal hneeds b).symm.trans h
      exact completesCounted_of_ne_frame hcounted (by simp)
    | false =>
      obtain ⟨a, hset, -⟩ := hinv.decoder hneeds
      cases (exec_feedBit_of_ready hfatal hneeds hset b).symm.trans h
      exact hset ▸ feedStep_completesCounted hinv hcounted hneeds hset b
  · cases (exec_feedBit_of_latched hfatal b).symm.trans h
    exact hinv.latched_completesCounted hcounted hfatal

theorem State.CompletesWith.result_ne_frame {codes : List ResultCode} {latch : Option ResultCode}
    (h : t.CompletesWith codes latch) (hcodes : .frame ∉ codes) : t.result ≠ .frame :=
  fun hframe => hcodes (hframe ▸ h.own)

/-- CONFIGURE always asks for a setup (43_commands.md R182). -/
theorem exec_configure_completesCounted (h : exec .configure s = .next t) : t.CompletesCounted active := by
  have hneeds : t.needsSetup = true := by rcases execConfigure_next h with ⟨c, rfl⟩ | ⟨a, -, rfl⟩ <;> rfl
  exact completesCounted_of_ne_frame (frameCounted_of_needsSetup hneeds)
    ((exec_configure_completesWith h).result_ne_frame (by decide))

/-- SETUP is refused and keeps the decoder state, or resets it (43_commands.md R184). -/
theorem exec_setup_completesCounted (hcounted : s.FrameCounted) (h : exec .setup s = .next t) :
    t.CompletesCounted active := by
  refine completesCounted_of_ne_frame ?_ ?_
  · rcases execSetup_next h with ⟨c, rfl⟩ | ⟨a, -, -, rfl⟩
    · exact hcounted
    · exact applySetup_frameCounted s.dropPacket
  · rcases exec_setup_completesWith h with rfl | ht
    · simp
    · exact ht.result_ne_frame (by decide)

/-- The standalone swaps leave the decoder state alone (43_commands.md R188, R189). -/
theorem swapCommand_completesCounted
    {swap : Params → Nat → List Host.Cell → Except ResultCode (List Host.Cell)}
    (hswap : ∀ p len m c, swap p len m = .error c → c = .invalidData) (hcounted : s.FrameCounted) :
    (swapCommand swap s).CompletesCounted active := by
  refine completesCounted_of_ne_frame ?_ ((completesWith_swapCommand hswap).result_ne_frame (by decide))
  rw [swapCommand_frame hswap]
  exact hcounted

theorem exec_completesCounted {i : Instr} (hinv : s.Inv) (hcounted : s.FrameCounted) (h : exec i s = .next t) :
    t.CompletesCounted s.attrs := by
  cases i with
  | nop => cases h; exact completesCounted_of_ne_frame hcounted (by simp)
  | configure => exact exec_configure_completesCounted h
  | setup => exact exec_setup_completesCounted hcounted h
  | decodeFirst => exact exec_decodeFirst_completesCounted hinv hcounted h
  | decodeNext => exact exec_decodeNext_completesCounted hinv hcounted h
  | feedBit b => exact exec_feedBit_completesCounted hinv hcounted h
  | swapBytes => cases h; exact swapCommand_completesCounted (fun _ _ _ _ => swap16_error) hcounted
  | swapShorts => cases h; exact swapCommand_completesCounted (fun _ _ _ _ => swap32_error) hcounted

end Sys2Proof.Machine
end

section
/-! PROOFS. The frame count along every step, and commands under a frame length that is too short
(70_reset_and_hazards.md R261). -/

namespace Sys2Proof.Machine

variable {s t : State}

/-- A window write reaches nothing the relation speaks of (20_memory.md R61, R64). -/
theorem windowWrite_frameCounted (hcounted : s.FrameCounted) (off size : Nat) (v : Word) :
    (windowWrite s off size v).FrameCounted := by
  unfold windowWrite
  rcases regionAt s.params off with r | i | i | b | _
  · cases r <;> exact hcounted
  all_goals exact hcounted

theorem hostAccess_frameCounted {acc : Access} (hcounted : s.FrameCounted) (h : hostAccess acc s = .next t) :
    t.FrameCounted := by
  rcases hostAccess_next h with ⟨off, size, -, -, rfl⟩ | ⟨off, size, -, rfl⟩ | ⟨off, size, v, -, -, -, -, rfl⟩
  · exact hcounted
  · exact hcounted
  · exact windowWrite_frameCounted hcounted off size v

/-- Settles O58, by what a step can be: a host access, an idle block, an illegal word or a command. -/
theorem everyStepKeepsTheFrameCount : Obligations.EveryStepKeepsTheFrameCount := by
  intro s t hinv hcounted h
  obtain ⟨rest, ⟨acc, hhost⟩ | rfl | rfl | ⟨i, hexec⟩⟩ := step_next h
  · exact hostAccess_frameCounted (s := { s with turns := rest }) hcounted hhost
  · exact hcounted
  · exact hcounted
  · exact (exec_completesCounted (hinv.takeTurn rest) hcounted hexec).counted

/-- Settles O60: under the invariant every command completes. -/
theorem tooShortFramesCompleteNoCommandWithFrame : Obligations.TooShortFramesCompleteNoCommandWithFrame := by
  intro i s a hinv hcounted hset hshort
  obtain ⟨t, h⟩ := commandsNeverStopUnderTheInvariant i s hinv
  exact ⟨t, h, (exec_completesCounted hinv hcounted h).noFrame a hset hshort⟩

end Sys2Proof.Machine
end
